-- ==== Sys2Proof/Word.lean ====
section
/-! DEFINITION. The words of the machine: register contents, bytes, addresses and instruction fields
(`spec/00_scope.md` R7, R8; `spec/10_state.md` R20; `spec/20_memory.md` R100, R102). -/

namespace Sys2Proof

/-- A general register, a virtual address, the program counter: 64 bits (R20, R24, R100). -/
abbrev Word := BitVec 64

/-- What one address names (R102). -/
abbrev Byte := BitVec 8

/-- A physical address (R100, decision D7). -/
abbrev PAddr := BitVec 32

/-- A register number as an instruction field holds it (R161 to R166). -/
abbrev Reg := BitVec 5

end Sys2Proof
end

