-- ==== Sys2Proof/Syntax.lean ====
section
/-! DEFINITION. The instructions: one constructor per row of `spec/opcode_table.json`, operands in
the order of the assembler syntax (`spec/30_encoding.md` R178). A register field is a `Reg`, a
16-bit immediate or offset and a jump target are bit fields; a shift amount and the fields the
hardware only carries (`code`, `op`, `cofun`) are numbers, bounded in `WellFormed`. -/

namespace Sys2Proof

/-- The instruction set (R169 to R175). -/
inductive Instr where
  -- Integer computation (`spec/40_integer_alu.md`)
  | addi (rt rs : Reg) (imm : BitVec 16) -- ADDI, R201
  | addiu (rt rs : Reg) (imm : BitVec 16) -- ADDIU, R202
  | slti (rt rs : Reg) (imm : BitVec 16) -- SLTI, R203
  | sltiu (rt rs : Reg) (imm : BitVec 16) -- SLTIU, R204
  | andi (rt rs : Reg) (imm : BitVec 16) -- ANDI, R205
  | ori (rt rs : Reg) (imm : BitVec 16) -- ORI, R206
  | xori (rt rs : Reg) (imm : BitVec 16) -- XORI, R207
  | daddi (rt rs : Reg) (imm : BitVec 16) -- DADDI, R209
  | daddiu (rt rs : Reg) (imm : BitVec 16) -- DADDIU, R210
  | lui (rt : Reg) (imm : BitVec 16) -- LUI, R208
  | add (rd rs rt : Reg) -- ADD, R211
  | addu (rd rs rt : Reg) -- ADDU, R212
  | sub (rd rs rt : Reg) -- SUB, R213
  | subu (rd rs rt : Reg) -- SUBU, R214
  | and (rd rs rt : Reg) -- AND, R215
  | or (rd rs rt : Reg) -- OR, R216
  | xor (rd rs rt : Reg) -- XOR, R217
  | nor (rd rs rt : Reg) -- NOR, R218
  | slt (rd rs rt : Reg) -- SLT, R219
  | sltu (rd rs rt : Reg) -- SLTU, R220
  | dadd (rd rs rt : Reg) -- DADD, R221
  | daddu (rd rs rt : Reg) -- DADDU, R222
  | dsub (rd rs rt : Reg) -- DSUB, R223
  | dsubu (rd rs rt : Reg) -- DSUBU, R224
  | sll (rd rt : Reg) (sa : Nat) -- SLL, R225
  | srl (rd rt : Reg) (sa : Nat) -- SRL, R226
  | sra (rd rt : Reg) (sa : Nat) -- SRA, R227
  | dsll (rd rt : Reg) (sa : Nat) -- DSLL, R231
  | dsrl (rd rt : Reg) (sa : Nat) -- DSRL, R232
  | dsra (rd rt : Reg) (sa : Nat) -- DSRA, R233
  | dsll32 (rd rt : Reg) (sa : Nat) -- DSLL32, R237
  | dsrl32 (rd rt : Reg) (sa : Nat) -- DSRL32, R238
  | dsra32 (rd rt : Reg) (sa : Nat) -- DSRA32, R239
  | sllv (rd rt rs : Reg) -- SLLV, R228
  | srlv (rd rt rs : Reg) -- SRLV, R229
  | srav (rd rt rs : Reg) -- SRAV, R230
  | dsllv (rd rt rs : Reg) -- DSLLV, R234
  | dsrlv (rd rt rs : Reg) -- DSRLV, R235
  | dsrav (rd rt rs : Reg) -- DSRAV, R236
  -- Multiply, divide, HI and LO (`spec/41_multiply_divide.md`)
  | mult (rs rt : Reg) -- MULT, R251
  | multu (rs rt : Reg) -- MULTU, R252
  | div (rs rt : Reg) -- DIV, R253
  | divu (rs rt : Reg) -- DIVU, R254
  | dmult (rs rt : Reg) -- DMULT, R255
  | dmultu (rs rt : Reg) -- DMULTU, R256
  | ddiv (rs rt : Reg) -- DDIV, R257
  | ddivu (rs rt : Reg) -- DDIVU, R258
  | mfhi (rd : Reg) -- MFHI, R259
  | mthi (rs : Reg) -- MTHI, R260
  | mflo (rd : Reg) -- MFLO, R261
  | mtlo (rs : Reg) -- MTLO, R262
  -- Jumps and branches (`spec/42_branch_jump.md`)
  | j (target : BitVec 26) -- J, R271
  | jal (target : BitVec 26) -- JAL, R272
  | jr (rs : Reg) -- JR, R273
  | jalr (rd rs : Reg) -- JALR, R274
  | beq (rs rt : Reg) (imm : BitVec 16) -- BEQ, R275
  | bne (rs rt : Reg) (imm : BitVec 16) -- BNE, R276
  | blez (rs : Reg) (imm : BitVec 16) -- BLEZ, R277
  | bgtz (rs : Reg) (imm : BitVec 16) -- BGTZ, R278
  | beql (rs rt : Reg) (imm : BitVec 16) -- BEQL, R279
  | bnel (rs rt : Reg) (imm : BitVec 16) -- BNEL, R280
  | blezl (rs : Reg) (imm : BitVec 16) -- BLEZL, R281
  | bgtzl (rs : Reg) (imm : BitVec 16) -- BGTZL, R282
  | bltz (rs : Reg) (imm : BitVec 16) -- BLTZ, R283
  | bgez (rs : Reg) (imm : BitVec 16) -- BGEZ, R284
  | bltzl (rs : Reg) (imm : BitVec 16) -- BLTZL, R285
  | bgezl (rs : Reg) (imm : BitVec 16) -- BGEZL, R286
  | bltzal (rs : Reg) (imm : BitVec 16) -- BLTZAL, R287
  | bgezal (rs : Reg) (imm : BitVec 16) -- BGEZAL, R288
  | bltzall (rs : Reg) (imm : BitVec 16) -- BLTZALL, R289
  | bgezall (rs : Reg) (imm : BitVec 16) -- BGEZALL, R290
  -- Loads and stores (`spec/43_load_store.md`)
  | lb (rt base : Reg) (imm : BitVec 16) -- LB, R301
  | lbu (rt base : Reg) (imm : BitVec 16) -- LBU, R302
  | lh (rt base : Reg) (imm : BitVec 16) -- LH, R303
  | lhu (rt base : Reg) (imm : BitVec 16) -- LHU, R304
  | lw (rt base : Reg) (imm : BitVec 16) -- LW, R305
  | lwu (rt base : Reg) (imm : BitVec 16) -- LWU, R306
  | ld (rt base : Reg) (imm : BitVec 16) -- LD, R307
  | lwl (rt base : Reg) (imm : BitVec 16) -- LWL, R308
  | lwr (rt base : Reg) (imm : BitVec 16) -- LWR, R309
  | ldl (rt base : Reg) (imm : BitVec 16) -- LDL, R310
  | ldr (rt base : Reg) (imm : BitVec 16) -- LDR, R311
  | sb (rt base : Reg) (imm : BitVec 16) -- SB, R312
  | sh (rt base : Reg) (imm : BitVec 16) -- SH, R313
  | sw (rt base : Reg) (imm : BitVec 16) -- SW, R314
  | sd (rt base : Reg) (imm : BitVec 16) -- SD, R315
  | swl (rt base : Reg) (imm : BitVec 16) -- SWL, R316
  | swr (rt base : Reg) (imm : BitVec 16) -- SWR, R317
  | sdl (rt base : Reg) (imm : BitVec 16) -- SDL, R318
  | sdr (rt base : Reg) (imm : BitVec 16) -- SDR, R319
  | ll (rt base : Reg) (imm : BitVec 16) -- LL, R330
  | lld (rt base : Reg) (imm : BitVec 16) -- LLD, R331
  | sc (rt base : Reg) (imm : BitVec 16) -- SC, R332
  | scd (rt base : Reg) (imm : BitVec 16) -- SCD, R333
  -- Traps and system (`spec/44_trap_system.md`)
  | syscall (code : Nat) -- SYSCALL, R341
  | brk (code : Nat) -- BREAK, R342
  | sync -- SYNC, R343
  | cache (op : Nat) (base : Reg) (imm : BitVec 16) -- CACHE, R344
  | tge (rs rt : Reg) (code : Nat) -- TGE, R345
  | tgeu (rs rt : Reg) (code : Nat) -- TGEU, R346
  | tlt (rs rt : Reg) (code : Nat) -- TLT, R347
  | tltu (rs rt : Reg) (code : Nat) -- TLTU, R348
  | teq (rs rt : Reg) (code : Nat) -- TEQ, R349
  | tne (rs rt : Reg) (code : Nat) -- TNE, R350
  | tgei (rs : Reg) (imm : BitVec 16) -- TGEI, R351
  | tgeiu (rs : Reg) (imm : BitVec 16) -- TGEIU, R352
  | tlti (rs : Reg) (imm : BitVec 16) -- TLTI, R353
  | tltiu (rs : Reg) (imm : BitVec 16) -- TLTIU, R354
  | teqi (rs : Reg) (imm : BitVec 16) -- TEQI, R355
  | tnei (rs : Reg) (imm : BitVec 16) -- TNEI, R356
  -- Coprocessor 0 (`spec/45_cop0.md`)
  | mfc0 (rt rd : Reg) -- MFC0, R371
  | dmfc0 (rt rd : Reg) -- DMFC0, R372
  | mtc0 (rt rd : Reg) -- MTC0, R373
  | dmtc0 (rt rd : Reg) -- DMTC0, R374
  | tlbr -- TLBR, R375
  | tlbwi -- TLBWI, R376
  | tlbwr -- TLBWR, R377
  | tlbp -- TLBP, R378
  | eret -- ERET, R379
  -- Coprocessor 1 loads, stores, moves, branches (`spec/46_cop1_move_branch.md`)
  | lwc1 (ft base : Reg) (imm : BitVec 16) -- LWC1, R401
  | ldc1 (ft base : Reg) (imm : BitVec 16) -- LDC1, R402
  | swc1 (ft base : Reg) (imm : BitVec 16) -- SWC1, R403
  | sdc1 (ft base : Reg) (imm : BitVec 16) -- SDC1, R404
  | mfc1 (rt fs : Reg) -- MFC1, R405
  | dmfc1 (rt fs : Reg) -- DMFC1, R406
  | cfc1 (rt fs : Reg) -- CFC1, R409
  | mtc1 (rt fs : Reg) -- MTC1, R407
  | dmtc1 (rt fs : Reg) -- DMTC1, R408
  | ctc1 (rt fs : Reg) -- CTC1, R410
  | bc1f (imm : BitVec 16) -- BC1F, R411
  | bc1t (imm : BitVec 16) -- BC1T, R412
  | bc1fl (imm : BitVec 16) -- BC1FL, R413
  | bc1tl (imm : BitVec 16) -- BC1TL, R414
  -- Coprocessor 1 arithmetic (`spec/47_cop1_arith.md`)
  | addS (fd fs ft : Reg) -- ADD.S, R440
  | addD (fd fs ft : Reg) -- ADD.D, R440
  | subS (fd fs ft : Reg) -- SUB.S, R441
  | subD (fd fs ft : Reg) -- SUB.D, R441
  | mulS (fd fs ft : Reg) -- MUL.S, R442
  | mulD (fd fs ft : Reg) -- MUL.D, R442
  | divS (fd fs ft : Reg) -- DIV.S, R443
  | divD (fd fs ft : Reg) -- DIV.D, R443
  | sqrtS (fd fs : Reg) -- SQRT.S, R444
  | sqrtD (fd fs : Reg) -- SQRT.D, R444
  | absS (fd fs : Reg) -- ABS.S, R445
  | absD (fd fs : Reg) -- ABS.D, R445
  | movS (fd fs : Reg) -- MOV.S, R446
  | movD (fd fs : Reg) -- MOV.D, R446
  | negS (fd fs : Reg) -- NEG.S, R447
  | negD (fd fs : Reg) -- NEG.D, R447
  | roundLS (fd fs : Reg) -- ROUND.L.S, R448
  | roundLD (fd fs : Reg) -- ROUND.L.D, R448
  | truncLS (fd fs : Reg) -- TRUNC.L.S, R449
  | truncLD (fd fs : Reg) -- TRUNC.L.D, R449
  | ceilLS (fd fs : Reg) -- CEIL.L.S, R450
  | ceilLD (fd fs : Reg) -- CEIL.L.D, R450
  | floorLS (fd fs : Reg) -- FLOOR.L.S, R451
  | floorLD (fd fs : Reg) -- FLOOR.L.D, R451
  | roundWS (fd fs : Reg) -- ROUND.W.S, R452
  | roundWD (fd fs : Reg) -- ROUND.W.D, R452
  | truncWS (fd fs : Reg) -- TRUNC.W.S, R453
  | truncWD (fd fs : Reg) -- TRUNC.W.D, R453
  | ceilWS (fd fs : Reg) -- CEIL.W.S, R454
  | ceilWD (fd fs : Reg) -- CEIL.W.D, R454
  | floorWS (fd fs : Reg) -- FLOOR.W.S, R455
  | floorWD (fd fs : Reg) -- FLOOR.W.D, R455
  | cvtSD (fd fs : Reg) -- CVT.S.D, R456
  | cvtSW (fd fs : Reg) -- CVT.S.W, R456
  | cvtSL (fd fs : Reg) -- CVT.S.L, R456
  | cvtDS (fd fs : Reg) -- CVT.D.S, R457
  | cvtDW (fd fs : Reg) -- CVT.D.W, R457
  | cvtDL (fd fs : Reg) -- CVT.D.L, R457
  | cvtWS (fd fs : Reg) -- CVT.W.S, R458
  | cvtWD (fd fs : Reg) -- CVT.W.D, R458
  | cvtLS (fd fs : Reg) -- CVT.L.S, R459
  | cvtLD (fd fs : Reg) -- CVT.L.D, R459
  | cFS (fs ft : Reg) -- C.F.S, R460
  | cFD (fs ft : Reg) -- C.F.D, R460
  | cUnS (fs ft : Reg) -- C.UN.S, R460
  | cUnD (fs ft : Reg) -- C.UN.D, R460
  | cEqS (fs ft : Reg) -- C.EQ.S, R460
  | cEqD (fs ft : Reg) -- C.EQ.D, R460
  | cUeqS (fs ft : Reg) -- C.UEQ.S, R460
  | cUeqD (fs ft : Reg) -- C.UEQ.D, R460
  | cOltS (fs ft : Reg) -- C.OLT.S, R460
  | cOltD (fs ft : Reg) -- C.OLT.D, R460
  | cUltS (fs ft : Reg) -- C.ULT.S, R460
  | cUltD (fs ft : Reg) -- C.ULT.D, R460
  | cOleS (fs ft : Reg) -- C.OLE.S, R460
  | cOleD (fs ft : Reg) -- C.OLE.D, R460
  | cUleS (fs ft : Reg) -- C.ULE.S, R460
  | cUleD (fs ft : Reg) -- C.ULE.D, R460
  | cSfS (fs ft : Reg) -- C.SF.S, R460
  | cSfD (fs ft : Reg) -- C.SF.D, R460
  | cNgleS (fs ft : Reg) -- C.NGLE.S, R460
  | cNgleD (fs ft : Reg) -- C.NGLE.D, R460
  | cSeqS (fs ft : Reg) -- C.SEQ.S, R460
  | cSeqD (fs ft : Reg) -- C.SEQ.D, R460
  | cNglS (fs ft : Reg) -- C.NGL.S, R460
  | cNglD (fs ft : Reg) -- C.NGL.D, R460
  | cLtS (fs ft : Reg) -- C.LT.S, R460
  | cLtD (fs ft : Reg) -- C.LT.D, R460
  | cNgeS (fs ft : Reg) -- C.NGE.S, R460
  | cNgeD (fs ft : Reg) -- C.NGE.D, R460
  | cLeS (fs ft : Reg) -- C.LE.S, R460
  | cLeD (fs ft : Reg) -- C.LE.D, R460
  | cNgtS (fs ft : Reg) -- C.NGT.S, R460
  | cNgtD (fs ft : Reg) -- C.NGT.D, R460
  -- Coprocessor 2 (`spec/48_cop2_reserved.md`)
  | cop2 (cofun : Nat) -- COP2, R480
  deriving DecidableEq, Repr

end Sys2Proof
end

