-- ==== Sys2Proof/Decode.lean ====
section
/-! DEFINITION. The decoder (`spec/30_encoding.md` R160 to R176), total on every word and on every
list of bytes, which rejects by name; then the encoder, written from the same formats. Ignored
fields take no part in selection (R168, log 20). -/

namespace Sys2Proof

/-! ### The fields of a word (R161 to R166) -/

/-- Bits 31:26, the major opcode (R161). -/
def opcodeField (w : BitVec 32) : BitVec 6 := w.extractLsb' 26 6
/-- Bits 25:21: `rs`, `base`, or a sub-opcode (R161, R165). -/
def rsField (w : BitVec 32) : Reg := w.extractLsb' 21 5
/-- Bits 20:16: `rt`, `ft`, or a sub-opcode (R161, R164, R166). -/
def rtField (w : BitVec 32) : Reg := w.extractLsb' 16 5
/-- Bits 15:11: `rd` or `fs` (R163, R166). -/
def rdField (w : BitVec 32) : Reg := w.extractLsb' 11 5
/-- Bits 10:6: `sa` or `fd` (R163, R166). -/
def saField (w : BitVec 32) : Reg := w.extractLsb' 6 5
/-- Bits 5:0, `funct` (R163, R166). -/
def functField (w : BitVec 32) : BitVec 6 := w.extractLsb' 0 6
/-- Bits 15:0, `imm` (R161). -/
def immField (w : BitVec 32) : BitVec 16 := w.extractLsb' 0 16
/-- Bits 25:0, `target` (R162). -/
def targetField (w : BitVec 32) : BitVec 26 := w.extractLsb' 0 26
/-- Bits 25:6, the code of SYSCALL and BREAK (R163). -/
def callCodeField (w : BitVec 32) : BitVec 20 := w.extractLsb' 6 20
/-- Bits 15:6, the code of a trap (R170). -/
def trapCodeField (w : BitVec 32) : BitVec 10 := w.extractLsb' 6 10
/-- Bit 25, which makes a coprocessor word an operation (R165). -/
def coBit (w : BitVec 32) : Bool := w.getLsbD 25

/-- Why a word, or a list of bytes, is no instruction: the group of R176 it falls in. -/
inductive Reject where
  /-- A major opcode marked `*` in R169, COP3 and the coprocessor-2 loads and stores among them. -/
  | majorOpcode (op : BitVec 6)
  /-- A SPECIAL `funct` marked `*` in R170. -/
  | special (funct : BitVec 6)
  /-- A REGIMM sub-opcode marked `*` in R171. -/
  | regimm (sub : Reg)
  /-- A COP0 sub-opcode with bit 25 clear that R172 does not list. -/
  | cop0Move (sub : Reg)
  /-- A COP0 operation that R172 does not list. -/
  | cop0Operation (funct : BitVec 6)
  /-- A COP1 sub-opcode or format that R173 does not list. -/
  | cop1Sub (sub : Reg)
  /-- A COP1 branch that R173 does not list. -/
  | cop1Branch (sub : Reg)
  /-- A `funct` that R174 does not allow for the format. -/
  | cop1Operation (fmt : Reg) (funct : BitVec 6)
  /-- Fewer than the four bytes of a word (R160). -/
  | tooShort
  deriving DecidableEq, Repr

/-! ### The maps -/

/-- SPECIAL, by `funct` (R170). -/
def decodeSpecial (w : BitVec 32) : Except Reject Instr :=
  match functField w with
  | 0x00#6 => .ok (.sll (rdField w) (rtField w) (saField w).toNat)
  | 0x02#6 => .ok (.srl (rdField w) (rtField w) (saField w).toNat)
  | 0x03#6 => .ok (.sra (rdField w) (rtField w) (saField w).toNat)
  | 0x04#6 => .ok (.sllv (rdField w) (rtField w) (rsField w))
  | 0x06#6 => .ok (.srlv (rdField w) (rtField w) (rsField w))
  | 0x07#6 => .ok (.srav (rdField w) (rtField w) (rsField w))
  | 0x08#6 => .ok (.jr (rsField w))
  | 0x09#6 => .ok (.jalr (rdField w) (rsField w))
  | 0x0C#6 => .ok (.syscall (callCodeField w).toNat)
  | 0x0D#6 => .ok (.brk (callCodeField w).toNat)
  | 0x0F#6 => .ok .sync
  | 0x10#6 => .ok (.mfhi (rdField w))
  | 0x11#6 => .ok (.mthi (rsField w))
  | 0x12#6 => .ok (.mflo (rdField w))
  | 0x13#6 => .ok (.mtlo (rsField w))
  | 0x14#6 => .ok (.dsllv (rdField w) (rtField w) (rsField w))
  | 0x16#6 => .ok (.dsrlv (rdField w) (rtField w) (rsField w))
  | 0x17#6 => .ok (.dsrav (rdField w) (rtField w) (rsField w))
  | 0x18#6 => .ok (.mult (rsField w) (rtField w))
  | 0x19#6 => .ok (.multu (rsField w) (rtField w))
  | 0x1A#6 => .ok (.div (rsField w) (rtField w))
  | 0x1B#6 => .ok (.divu (rsField w) (rtField w))
  | 0x1C#6 => .ok (.dmult (rsField w) (rtField w))
  | 0x1D#6 => .ok (.dmultu (rsField w) (rtField w))
  | 0x1E#6 => .ok (.ddiv (rsField w) (rtField w))
  | 0x1F#6 => .ok (.ddivu (rsField w) (rtField w))
  | 0x20#6 => .ok (.add (rdField w) (rsField w) (rtField w))
  | 0x21#6 => .ok (.addu (rdField w) (rsField w) (rtField w))
  | 0x22#6 => .ok (.sub (rdField w) (rsField w) (rtField w))
  | 0x23#6 => .ok (.subu (rdField w) (rsField w) (rtField w))
  | 0x24#6 => .ok (.and (rdField w) (rsField w) (rtField w))
  | 0x25#6 => .ok (.or (rdField w) (rsField w) (rtField w))
  | 0x26#6 => .ok (.xor (rdField w) (rsField w) (rtField w))
  | 0x27#6 => .ok (.nor (rdField w) (rsField w) (rtField w))
  | 0x2A#6 => .ok (.slt (rdField w) (rsField w) (rtField w))
  | 0x2B#6 => .ok (.sltu (rdField w) (rsField w) (rtField w))
  | 0x2C#6 => .ok (.dadd (rdField w) (rsField w) (rtField w))
  | 0x2D#6 => .ok (.daddu (rdField w) (rsField w) (rtField w))
  | 0x2E#6 => .ok (.dsub (rdField w) (rsField w) (rtField w))
  | 0x2F#6 => .ok (.dsubu (rdField w) (rsField w) (rtField w))
  | 0x30#6 => .ok (.tge (rsField w) (rtField w) (trapCodeField w).toNat)
  | 0x31#6 => .ok (.tgeu (rsField w) (rtField w) (trapCodeField w).toNat)
  | 0x32#6 => .ok (.tlt (rsField w) (rtField w) (trapCodeField w).toNat)
  | 0x33#6 => .ok (.tltu (rsField w) (rtField w) (trapCodeField w).toNat)
  | 0x34#6 => .ok (.teq (rsField w) (rtField w) (trapCodeField w).toNat)
  | 0x36#6 => .ok (.tne (rsField w) (rtField w) (trapCodeField w).toNat)
  | 0x38#6 => .ok (.dsll (rdField w) (rtField w) (saField w).toNat)
  | 0x3A#6 => .ok (.dsrl (rdField w) (rtField w) (saField w).toNat)
  | 0x3B#6 => .ok (.dsra (rdField w) (rtField w) (saField w).toNat)
  | 0x3C#6 => .ok (.dsll32 (rdField w) (rtField w) (saField w).toNat)
  | 0x3E#6 => .ok (.dsrl32 (rdField w) (rtField w) (saField w).toNat)
  | 0x3F#6 => .ok (.dsra32 (rdField w) (rtField w) (saField w).toNat)
  | f => .error (.special f)

/-- REGIMM, by bits 20:16 (R171). -/
def decodeRegimm (w : BitVec 32) : Except Reject Instr :=
  match rtField w with
  | 0x00#5 => .ok (.bltz (rsField w) (immField w))
  | 0x01#5 => .ok (.bgez (rsField w) (immField w))
  | 0x02#5 => .ok (.bltzl (rsField w) (immField w))
  | 0x03#5 => .ok (.bgezl (rsField w) (immField w))
  | 0x08#5 => .ok (.tgei (rsField w) (immField w))
  | 0x09#5 => .ok (.tgeiu (rsField w) (immField w))
  | 0x0A#5 => .ok (.tlti (rsField w) (immField w))
  | 0x0B#5 => .ok (.tltiu (rsField w) (immField w))
  | 0x0C#5 => .ok (.teqi (rsField w) (immField w))
  | 0x0E#5 => .ok (.tnei (rsField w) (immField w))
  | 0x10#5 => .ok (.bltzal (rsField w) (immField w))
  | 0x11#5 => .ok (.bgezal (rsField w) (immField w))
  | 0x12#5 => .ok (.bltzall (rsField w) (immField w))
  | 0x13#5 => .ok (.bgezall (rsField w) (immField w))
  | sub => .error (.regimm sub)

/-- COP0 operations, by `funct` (R172). -/
def decodeCop0Operation (w : BitVec 32) : Except Reject Instr :=
  match functField w with
  | 0x01#6 => .ok .tlbr
  | 0x02#6 => .ok .tlbwi
  | 0x06#6 => .ok .tlbwr
  | 0x08#6 => .ok .tlbp
  | 0x18#6 => .ok .eret
  | f => .error (.cop0Operation f)

/-- COP0 moves, by bits 25:21 (R172). -/
def decodeCop0Move (w : BitVec 32) : Except Reject Instr :=
  match rsField w with
  | 0x00#5 => .ok (.mfc0 (rtField w) (rdField w))
  | 0x01#5 => .ok (.dmfc0 (rtField w) (rdField w))
  | 0x04#5 => .ok (.mtc0 (rtField w) (rdField w))
  | 0x05#5 => .ok (.dmtc0 (rtField w) (rdField w))
  | sub => .error (.cop0Move sub)

/-- COP0 (R172). -/
def decodeCop0 (w : BitVec 32) : Except Reject Instr :=
  if coBit w then decodeCop0Operation w else decodeCop0Move w

/-- COP1 branches, by bits 20:16 (R173). -/
def decodeCop1Branch (w : BitVec 32) : Except Reject Instr :=
  match rtField w with
  | 0x00#5 => .ok (.bc1f (immField w))
  | 0x01#5 => .ok (.bc1t (immField w))
  | 0x02#5 => .ok (.bc1fl (immField w))
  | 0x03#5 => .ok (.bc1tl (immField w))
  | sub => .error (.cop1Branch sub)

/-- COP1 operations on the single format, by `funct` (R174). -/
def decodeCop1Single (w : BitVec 32) : Except Reject Instr :=
  match functField w with
  | 0x00#6 => .ok (.addS (saField w) (rdField w) (rtField w))
  | 0x01#6 => .ok (.subS (saField w) (rdField w) (rtField w))
  | 0x02#6 => .ok (.mulS (saField w) (rdField w) (rtField w))
  | 0x03#6 => .ok (.divS (saField w) (rdField w) (rtField w))
  | 0x04#6 => .ok (.sqrtS (saField w) (rdField w))
  | 0x05#6 => .ok (.absS (saField w) (rdField w))
  | 0x06#6 => .ok (.movS (saField w) (rdField w))
  | 0x07#6 => .ok (.negS (saField w) (rdField w))
  | 0x08#6 => .ok (.roundLS (saField w) (rdField w))
  | 0x09#6 => .ok (.truncLS (saField w) (rdField w))
  | 0x0A#6 => .ok (.ceilLS (saField w) (rdField w))
  | 0x0B#6 => .ok (.floorLS (saField w) (rdField w))
  | 0x0C#6 => .ok (.roundWS (saField w) (rdField w))
  | 0x0D#6 => .ok (.truncWS (saField w) (rdField w))
  | 0x0E#6 => .ok (.ceilWS (saField w) (rdField w))
  | 0x0F#6 => .ok (.floorWS (saField w) (rdField w))
  | 0x21#6 => .ok (.cvtDS (saField w) (rdField w))
  | 0x24#6 => .ok (.cvtWS (saField w) (rdField w))
  | 0x25#6 => .ok (.cvtLS (saField w) (rdField w))
  | 0x30#6 => .ok (.cFS (rdField w) (rtField w))
  | 0x31#6 => .ok (.cUnS (rdField w) (rtField w))
  | 0x32#6 => .ok (.cEqS (rdField w) (rtField w))
  | 0x33#6 => .ok (.cUeqS (rdField w) (rtField w))
  | 0x34#6 => .ok (.cOltS (rdField w) (rtField w))
  | 0x35#6 => .ok (.cUltS (rdField w) (rtField w))
  | 0x36#6 => .ok (.cOleS (rdField w) (rtField w))
  | 0x37#6 => .ok (.cUleS (rdField w) (rtField w))
  | 0x38#6 => .ok (.cSfS (rdField w) (rtField w))
  | 0x39#6 => .ok (.cNgleS (rdField w) (rtField w))
  | 0x3A#6 => .ok (.cSeqS (rdField w) (rtField w))
  | 0x3B#6 => .ok (.cNglS (rdField w) (rtField w))
  | 0x3C#6 => .ok (.cLtS (rdField w) (rtField w))
  | 0x3D#6 => .ok (.cNgeS (rdField w) (rtField w))
  | 0x3E#6 => .ok (.cLeS (rdField w) (rtField w))
  | 0x3F#6 => .ok (.cNgtS (rdField w) (rtField w))
  | f => .error (.cop1Operation 0x10 f)

/-- COP1 operations on the double format, by `funct` (R174). -/
def decodeCop1Double (w : BitVec 32) : Except Reject Instr :=
  match functField w with
  | 0x00#6 => .ok (.addD (saField w) (rdField w) (rtField w))
  | 0x01#6 => .ok (.subD (saField w) (rdField w) (rtField w))
  | 0x02#6 => .ok (.mulD (saField w) (rdField w) (rtField w))
  | 0x03#6 => .ok (.divD (saField w) (rdField w) (rtField w))
  | 0x04#6 => .ok (.sqrtD (saField w) (rdField w))
  | 0x05#6 => .ok (.absD (saField w) (rdField w))
  | 0x06#6 => .ok (.movD (saField w) (rdField w))
  | 0x07#6 => .ok (.negD (saField w) (rdField w))
  | 0x08#6 => .ok (.roundLD (saField w) (rdField w))
  | 0x09#6 => .ok (.truncLD (saField w) (rdField w))
  | 0x0A#6 => .ok (.ceilLD (saField w) (rdField w))
  | 0x0B#6 => .ok (.floorLD (saField w) (rdField w))
  | 0x0C#6 => .ok (.roundWD (saField w) (rdField w))
  | 0x0D#6 => .ok (.truncWD (saField w) (rdField w))
  | 0x0E#6 => .ok (.ceilWD (saField w) (rdField w))
  | 0x0F#6 => .ok (.floorWD (saField w) (rdField w))
  | 0x20#6 => .ok (.cvtSD (saField w) (rdField w))
  | 0x24#6 => .ok (.cvtWD (saField w) (rdField w))
  | 0x25#6 => .ok (.cvtLD (saField w) (rdField w))
  | 0x30#6 => .ok (.cFD (rdField w) (rtField w))
  | 0x31#6 => .ok (.cUnD (rdField w) (rtField w))
  | 0x32#6 => .ok (.cEqD (rdField w) (rtField w))
  | 0x33#6 => .ok (.cUeqD (rdField w) (rtField w))
  | 0x34#6 => .ok (.cOltD (rdField w) (rtField w))
  | 0x35#6 => .ok (.cUltD (rdField w) (rtField w))
  | 0x36#6 => .ok (.cOleD (rdField w) (rtField w))
  | 0x37#6 => .ok (.cUleD (rdField w) (rtField w))
  | 0x38#6 => .ok (.cSfD (rdField w) (rtField w))
  | 0x39#6 => .ok (.cNgleD (rdField w) (rtField w))
  | 0x3A#6 => .ok (.cSeqD (rdField w) (rtField w))
  | 0x3B#6 => .ok (.cNglD (rdField w) (rtField w))
  | 0x3C#6 => .ok (.cLtD (rdField w) (rtField w))
  | 0x3D#6 => .ok (.cNgeD (rdField w) (rtField w))
  | 0x3E#6 => .ok (.cLeD (rdField w) (rtField w))
  | 0x3F#6 => .ok (.cNgtD (rdField w) (rtField w))
  | f => .error (.cop1Operation 0x11 f)

/-- COP1 operations on the word format, by `funct` (R174). -/
def decodeCop1Word (w : BitVec 32) : Except Reject Instr :=
  match functField w with
  | 0x20#6 => .ok (.cvtSW (saField w) (rdField w))
  | 0x21#6 => .ok (.cvtDW (saField w) (rdField w))
  | f => .error (.cop1Operation 0x14 f)

/-- COP1 operations on the long format, by `funct` (R174). -/
def decodeCop1Long (w : BitVec 32) : Except Reject Instr :=
  match functField w with
  | 0x20#6 => .ok (.cvtSL (saField w) (rdField w))
  | 0x21#6 => .ok (.cvtDL (saField w) (rdField w))
  | f => .error (.cop1Operation 0x15 f)

/-- COP1, by bits 25:21 (R173). -/
def decodeCop1 (w : BitVec 32) : Except Reject Instr :=
  match rsField w with
  | 0x00#5 => .ok (.mfc1 (rtField w) (rdField w))
  | 0x01#5 => .ok (.dmfc1 (rtField w) (rdField w))
  | 0x02#5 => .ok (.cfc1 (rtField w) (rdField w))
  | 0x04#5 => .ok (.mtc1 (rtField w) (rdField w))
  | 0x05#5 => .ok (.dmtc1 (rtField w) (rdField w))
  | 0x06#5 => .ok (.ctc1 (rtField w) (rdField w))
  | 0x08#5 => decodeCop1Branch w
  | 0x10#5 => decodeCop1Single w
  | 0x11#5 => decodeCop1Double w
  | 0x14#5 => decodeCop1Word w
  | 0x15#5 => decodeCop1Long w
  | sub => .error (.cop1Sub sub)

/-- The decoder on a word, by the major opcode (R168, R169). -/
def decodeWord (w : BitVec 32) : Except Reject Instr :=
  match opcodeField w with
  | 0x00#6 => decodeSpecial w
  | 0x01#6 => decodeRegimm w
  | 0x02#6 => .ok (.j (targetField w))
  | 0x03#6 => .ok (.jal (targetField w))
  | 0x04#6 => .ok (.beq (rsField w) (rtField w) (immField w))
  | 0x05#6 => .ok (.bne (rsField w) (rtField w) (immField w))
  | 0x06#6 => .ok (.blez (rsField w) (immField w))
  | 0x07#6 => .ok (.bgtz (rsField w) (immField w))
  | 0x08#6 => .ok (.addi (rtField w) (rsField w) (immField w))
  | 0x09#6 => .ok (.addiu (rtField w) (rsField w) (immField w))
  | 0x0A#6 => .ok (.slti (rtField w) (rsField w) (immField w))
  | 0x0B#6 => .ok (.sltiu (rtField w) (rsField w) (immField w))
  | 0x0C#6 => .ok (.andi (rtField w) (rsField w) (immField w))
  | 0x0D#6 => .ok (.ori (rtField w) (rsField w) (immField w))
  | 0x0E#6 => .ok (.xori (rtField w) (rsField w) (immField w))
  | 0x0F#6 => .ok (.lui (rtField w) (immField w))
  | 0x10#6 => decodeCop0 w
  | 0x11#6 => decodeCop1 w
  | 0x12#6 => .ok (.cop2 (targetField w).toNat)
  | 0x14#6 => .ok (.beql (rsField w) (rtField w) (immField w))
  | 0x15#6 => .ok (.bnel (rsField w) (rtField w) (immField w))
  | 0x16#6 => .ok (.blezl (rsField w) (immField w))
  | 0x17#6 => .ok (.bgtzl (rsField w) (immField w))
  | 0x18#6 => .ok (.daddi (rtField w) (rsField w) (immField w))
  | 0x19#6 => .ok (.daddiu (rtField w) (rsField w) (immField w))
  | 0x1A#6 => .ok (.ldl (rtField w) (rsField w) (immField w))
  | 0x1B#6 => .ok (.ldr (rtField w) (rsField w) (immField w))
  | 0x20#6 => .ok (.lb (rtField w) (rsField w) (immField w))
  | 0x21#6 => .ok (.lh (rtField w) (rsField w) (immField w))
  | 0x22#6 => .ok (.lwl (rtField w) (rsField w) (immField w))
  | 0x23#6 => .ok (.lw (rtField w) (rsField w) (immField w))
  | 0x24#6 => .ok (.lbu (rtField w) (rsField w) (immField w))
  | 0x25#6 => .ok (.lhu (rtField w) (rsField w) (immField w))
  | 0x26#6 => .ok (.lwr (rtField w) (rsField w) (immField w))
  | 0x27#6 => .ok (.lwu (rtField w) (rsField w) (immField w))
  | 0x28#6 => .ok (.sb (rtField w) (rsField w) (immField w))
  | 0x29#6 => .ok (.sh (rtField w) (rsField w) (immField w))
  | 0x2A#6 => .ok (.swl (rtField w) (rsField w) (immField w))
  | 0x2B#6 => .ok (.sw (rtField w) (rsField w) (immField w))
  | 0x2C#6 => .ok (.sdl (rtField w) (rsField w) (immField w))
  | 0x2D#6 => .ok (.sdr (rtField w) (rsField w) (immField w))
  | 0x2E#6 => .ok (.swr (rtField w) (rsField w) (immField w))
  | 0x2F#6 => .ok (.cache (rtField w).toNat (rsField w) (immField w))
  | 0x30#6 => .ok (.ll (rtField w) (rsField w) (immField w))
  | 0x31#6 => .ok (.lwc1 (rtField w) (rsField w) (immField w))
  | 0x34#6 => .ok (.lld (rtField w) (rsField w) (immField w))
  | 0x35#6 => .ok (.ldc1 (rtField w) (rsField w) (immField w))
  | 0x37#6 => .ok (.ld (rtField w) (rsField w) (immField w))
  | 0x38#6 => .ok (.sc (rtField w) (rsField w) (immField w))
  | 0x39#6 => .ok (.swc1 (rtField w) (rsField w) (immField w))
  | 0x3C#6 => .ok (.scd (rtField w) (rsField w) (immField w))
  | 0x3D#6 => .ok (.sdc1 (rtField w) (rsField w) (immField w))
  | 0x3F#6 => .ok (.sd (rtField w) (rsField w) (immField w))
  | op => .error (.majorOpcode op)

/-! ### Bytes -/

/-- The word whose bytes, lowest address first, are `a b c d` (big-endian, R130, R160). -/
def wordOfBytes (a b c d : Byte) : BitVec 32 := a ++ b ++ c ++ d

/-- The bytes of a word, lowest address first (R130, R160). -/
def bytesOfWord (w : BitVec 32) : List Byte :=
  [w.extractLsb' 24 8, w.extractLsb' 16 8, w.extractLsb' 8 8, w.extractLsb' 0 8]

/-- The decoder on bytes: one instruction and the bytes after it. -/
def decode (bytes : List Byte) : Except Reject (Instr × List Byte) :=
  match bytes with
  | a :: b :: c :: d :: rest =>
    match decodeWord (wordOfBytes a b c d) with
    | .ok i => .ok (i, rest)
    | .error e => .error e
  | _ => .error .tooShort

/-- The instruction the decoder reads from an instruction of `nbits` bits `w`, numbered as the
opcode table numbers them (every row has one word of 32 bits, R160). -/
def decodeTableWord (nbits w : Nat) : Option Instr :=
  match decode (bytesOfWord (BitVec.ofNat 32 (w % 2 ^ nbits))) with
  | .ok (i, _) => some i
  | .error _ => none

/-! ### The encoder -/

/-- I-format, also REGIMM and the COP1 branches (R161, R164, R165). -/
def iWord (op : BitVec 6) (rs rt : Reg) (imm : BitVec 16) : BitVec 32 := op ++ rs ++ rt ++ imm
/-- J-format (R162). -/
def jWord (op : BitVec 6) (target : BitVec 26) : BitVec 32 := op ++ target
/-- R-format under SPECIAL (R163). -/
def rWord (rs rt rd sa : Reg) (funct : BitVec 6) : BitVec 32 := 0#6 ++ rs ++ rt ++ rd ++ sa ++ funct
/-- SYSCALL and BREAK (R163). -/
def callWord (code : BitVec 20) (funct : BitVec 6) : BitVec 32 := 0#6 ++ code ++ funct
/-- The register traps (R170). -/
def trapWord (rs rt : Reg) (code : BitVec 10) (funct : BitVec 6) : BitVec 32 :=
  0#6 ++ rs ++ rt ++ code ++ funct
/-- A move between a general and a coprocessor register (R165). -/
def moveWord (op : BitVec 6) (sub rt rd : Reg) : BitVec 32 := op ++ sub ++ rt ++ rd ++ 0#11
/-- A COP0 operation (R165). -/
def coWord (funct : BitVec 6) : BitVec 32 := 0x10#6 ++ 1#1 ++ 0#19 ++ funct
/-- A floating-point operation (R166). -/
def fpWord (fmt ft fs fd : Reg) (funct : BitVec 6) : BitVec 32 :=
  0x11#6 ++ fmt ++ ft ++ fs ++ fd ++ funct

/-- The word of a well-formed instruction (R161 to R175); ignored fields are zero. -/
def encode (i : Instr) : BitVec 32 :=
  match i with
  | .addi rt rs imm => iWord 0x08 rs rt imm
  | .addiu rt rs imm => iWord 0x09 rs rt imm
  | .slti rt rs imm => iWord 0x0A rs rt imm
  | .sltiu rt rs imm => iWord 0x0B rs rt imm
  | .andi rt rs imm => iWord 0x0C rs rt imm
  | .ori rt rs imm => iWord 0x0D rs rt imm
  | .xori rt rs imm => iWord 0x0E rs rt imm
  | .daddi rt rs imm => iWord 0x18 rs rt imm
  | .daddiu rt rs imm => iWord 0x19 rs rt imm
  | .lui rt imm => iWord 0x0F 0 rt imm
  | .add rd rs rt => rWord rs rt rd 0 0x20
  | .addu rd rs rt => rWord rs rt rd 0 0x21
  | .sub rd rs rt => rWord rs rt rd 0 0x22
  | .subu rd rs rt => rWord rs rt rd 0 0x23
  | .and rd rs rt => rWord rs rt rd 0 0x24
  | .or rd rs rt => rWord rs rt rd 0 0x25
  | .xor rd rs rt => rWord rs rt rd 0 0x26
  | .nor rd rs rt => rWord rs rt rd 0 0x27
  | .slt rd rs rt => rWord rs rt rd 0 0x2A
  | .sltu rd rs rt => rWord rs rt rd 0 0x2B
  | .dadd rd rs rt => rWord rs rt rd 0 0x2C
  | .daddu rd rs rt => rWord rs rt rd 0 0x2D
  | .dsub rd rs rt => rWord rs rt rd 0 0x2E
  | .dsubu rd rs rt => rWord rs rt rd 0 0x2F
  | .sll rd rt sa => rWord 0 rt rd (BitVec.ofNat 5 sa) 0x00
  | .srl rd rt sa => rWord 0 rt rd (BitVec.ofNat 5 sa) 0x02
  | .sra rd rt sa => rWord 0 rt rd (BitVec.ofNat 5 sa) 0x03
  | .dsll rd rt sa => rWord 0 rt rd (BitVec.ofNat 5 sa) 0x38
  | .dsrl rd rt sa => rWord 0 rt rd (BitVec.ofNat 5 sa) 0x3A
  | .dsra rd rt sa => rWord 0 rt rd (BitVec.ofNat 5 sa) 0x3B
  | .dsll32 rd rt sa => rWord 0 rt rd (BitVec.ofNat 5 sa) 0x3C
  | .dsrl32 rd rt sa => rWord 0 rt rd (BitVec.ofNat 5 sa) 0x3E
  | .dsra32 rd rt sa => rWord 0 rt rd (BitVec.ofNat 5 sa) 0x3F
  | .sllv rd rt rs => rWord rs rt rd 0 0x04
  | .srlv rd rt rs => rWord rs rt rd 0 0x06
  | .srav rd rt rs => rWord rs rt rd 0 0x07
  | .dsllv rd rt rs => rWord rs rt rd 0 0x14
  | .dsrlv rd rt rs => rWord rs rt rd 0 0x16
  | .dsrav rd rt rs => rWord rs rt rd 0 0x17
  | .mult rs rt => rWord rs rt 0 0 0x18
  | .multu rs rt => rWord rs rt 0 0 0x19
  | .div rs rt => rWord rs rt 0 0 0x1A
  | .divu rs rt => rWord rs rt 0 0 0x1B
  | .dmult rs rt => rWord rs rt 0 0 0x1C
  | .dmultu rs rt => rWord rs rt 0 0 0x1D
  | .ddiv rs rt => rWord rs rt 0 0 0x1E
  | .ddivu rs rt => rWord rs rt 0 0 0x1F
  | .mfhi rd => rWord 0 0 rd 0 0x10
  | .mthi rs => rWord rs 0 0 0 0x11
  | .mflo rd => rWord 0 0 rd 0 0x12
  | .mtlo rs => rWord rs 0 0 0 0x13
  | .j target => jWord 0x02 target
  | .jal target => jWord 0x03 target
  | .jr rs => rWord rs 0 0 0 0x08
  | .jalr rd rs => rWord rs 0 rd 0 0x09
  | .beq rs rt imm => iWord 0x04 rs rt imm
  | .bne rs rt imm => iWord 0x05 rs rt imm
  | .blez rs imm => iWord 0x06 rs 0 imm
  | .bgtz rs imm => iWord 0x07 rs 0 imm
  | .beql rs rt imm => iWord 0x14 rs rt imm
  | .bnel rs rt imm => iWord 0x15 rs rt imm
  | .blezl rs imm => iWord 0x16 rs 0 imm
  | .bgtzl rs imm => iWord 0x17 rs 0 imm
  | .bltz rs imm => iWord 0x01 rs 0x00 imm
  | .bgez rs imm => iWord 0x01 rs 0x01 imm
  | .bltzl rs imm => iWord 0x01 rs 0x02 imm
  | .bgezl rs imm => iWord 0x01 rs 0x03 imm
  | .bltzal rs imm => iWord 0x01 rs 0x10 imm
  | .bgezal rs imm => iWord 0x01 rs 0x11 imm
  | .bltzall rs imm => iWord 0x01 rs 0x12 imm
  | .bgezall rs imm => iWord 0x01 rs 0x13 imm
  | .lb rt base imm => iWord 0x20 base rt imm
  | .lbu rt base imm => iWord 0x24 base rt imm
  | .lh rt base imm => iWord 0x21 base rt imm
  | .lhu rt base imm => iWord 0x25 base rt imm
  | .lw rt base imm => iWord 0x23 base rt imm
  | .lwu rt base imm => iWord 0x27 base rt imm
  | .ld rt base imm => iWord 0x37 base rt imm
  | .lwl rt base imm => iWord 0x22 base rt imm
  | .lwr rt base imm => iWord 0x26 base rt imm
  | .ldl rt base imm => iWord 0x1A base rt imm
  | .ldr rt base imm => iWord 0x1B base rt imm
  | .sb rt base imm => iWord 0x28 base rt imm
  | .sh rt base imm => iWord 0x29 base rt imm
  | .sw rt base imm => iWord 0x2B base rt imm
  | .sd rt base imm => iWord 0x3F base rt imm
  | .swl rt base imm => iWord 0x2A base rt imm
  | .swr rt base imm => iWord 0x2E base rt imm
  | .sdl rt base imm => iWord 0x2C base rt imm
  | .sdr rt base imm => iWord 0x2D base rt imm
  | .ll rt base imm => iWord 0x30 base rt imm
  | .lld rt base imm => iWord 0x34 base rt imm
  | .sc rt base imm => iWord 0x38 base rt imm
  | .scd rt base imm => iWord 0x3C base rt imm
  | .syscall code => callWord (BitVec.ofNat 20 code) 0x0C
  | .brk code => callWord (BitVec.ofNat 20 code) 0x0D
  | .sync => rWord 0 0 0 0 0x0F
  | .cache op base imm => iWord 0x2F base (BitVec.ofNat 5 op) imm
  | .tge rs rt code => trapWord rs rt (BitVec.ofNat 10 code) 0x30
  | .tgeu rs rt code => trapWord rs rt (BitVec.ofNat 10 code) 0x31
  | .tlt rs rt code => trapWord rs rt (BitVec.ofNat 10 code) 0x32
  | .tltu rs rt code => trapWord rs rt (BitVec.ofNat 10 code) 0x33
  | .teq rs rt code => trapWord rs rt (BitVec.ofNat 10 code) 0x34
  | .tne rs rt code => trapWord rs rt (BitVec.ofNat 10 code) 0x36
  | .tgei rs imm => iWord 0x01 rs 0x08 imm
  | .tgeiu rs imm => iWord 0x01 rs 0x09 imm
  | .tlti rs imm => iWord 0x01 rs 0x0A imm
  | .tltiu rs imm => iWord 0x01 rs 0x0B imm
  | .teqi rs imm => iWord 0x01 rs 0x0C imm
  | .tnei rs imm => iWord 0x01 rs 0x0E imm
  | .mfc0 rt rd => moveWord 0x10 0x00 rt rd
  | .dmfc0 rt rd => moveWord 0x10 0x01 rt rd
  | .mtc0 rt rd => moveWord 0x10 0x04 rt rd
  | .dmtc0 rt rd => moveWord 0x10 0x05 rt rd
  | .tlbr => coWord 0x01
  | .tlbwi => coWord 0x02
  | .tlbwr => coWord 0x06
  | .tlbp => coWord 0x08
  | .eret => coWord 0x18
  | .lwc1 ft base imm => iWord 0x31 base ft imm
  | .ldc1 ft base imm => iWord 0x35 base ft imm
  | .swc1 ft base imm => iWord 0x39 base ft imm
  | .sdc1 ft base imm => iWord 0x3D base ft imm
  | .mfc1 rt fs => moveWord 0x11 0x00 rt fs
  | .dmfc1 rt fs => moveWord 0x11 0x01 rt fs
  | .cfc1 rt fs => moveWord 0x11 0x02 rt fs
  | .mtc1 rt fs => moveWord 0x11 0x04 rt fs
  | .dmtc1 rt fs => moveWord 0x11 0x05 rt fs
  | .ctc1 rt fs => moveWord 0x11 0x06 rt fs
  | .bc1f imm => iWord 0x11 0x08 0x00 imm
  | .bc1t imm => iWord 0x11 0x08 0x01 imm
  | .bc1fl imm => iWord 0x11 0x08 0x02 imm
  | .bc1tl imm => iWord 0x11 0x08 0x03 imm
  | .addS fd fs ft => fpWord 0x10 ft fs fd 0x00
  | .addD fd fs ft => fpWord 0x11 ft fs fd 0x00
  | .subS fd fs ft => fpWord 0x10 ft fs fd 0x01
  | .subD fd fs ft => fpWord 0x11 ft fs fd 0x01
  | .mulS fd fs ft => fpWord 0x10 ft fs fd 0x02
  | .mulD fd fs ft => fpWord 0x11 ft fs fd 0x02
  | .divS fd fs ft => fpWord 0x10 ft fs fd 0x03
  | .divD fd fs ft => fpWord 0x11 ft fs fd 0x03
  | .sqrtS fd fs => fpWord 0x10 0 fs fd 0x04
  | .sqrtD fd fs => fpWord 0x11 0 fs fd 0x04
  | .absS fd fs => fpWord 0x10 0 fs fd 0x05
  | .absD fd fs => fpWord 0x11 0 fs fd 0x05
  | .movS fd fs => fpWord 0x10 0 fs fd 0x06
  | .movD fd fs => fpWord 0x11 0 fs fd 0x06
  | .negS fd fs => fpWord 0x10 0 fs fd 0x07
  | .negD fd fs => fpWord 0x11 0 fs fd 0x07
  | .roundLS fd fs => fpWord 0x10 0 fs fd 0x08
  | .roundLD fd fs => fpWord 0x11 0 fs fd 0x08
  | .truncLS fd fs => fpWord 0x10 0 fs fd 0x09
  | .truncLD fd fs => fpWord 0x11 0 fs fd 0x09
  | .ceilLS fd fs => fpWord 0x10 0 fs fd 0x0A
  | .ceilLD fd fs => fpWord 0x11 0 fs fd 0x0A
  | .floorLS fd fs => fpWord 0x10 0 fs fd 0x0B
  | .floorLD fd fs => fpWord 0x11 0 fs fd 0x0B
  | .roundWS fd fs => fpWord 0x10 0 fs fd 0x0C
  | .roundWD fd fs => fpWord 0x11 0 fs fd 0x0C
  | .truncWS fd fs => fpWord 0x10 0 fs fd 0x0D
  | .truncWD fd fs => fpWord 0x11 0 fs fd 0x0D
  | .ceilWS fd fs => fpWord 0x10 0 fs fd 0x0E
  | .ceilWD fd fs => fpWord 0x11 0 fs fd 0x0E
  | .floorWS fd fs => fpWord 0x10 0 fs fd 0x0F
  | .floorWD fd fs => fpWord 0x11 0 fs fd 0x0F
  | .cvtSD fd fs => fpWord 0x11 0 fs fd 0x20
  | .cvtSW fd fs => fpWord 0x14 0 fs fd 0x20
  | .cvtSL fd fs => fpWord 0x15 0 fs fd 0x20
  | .cvtDS fd fs => fpWord 0x10 0 fs fd 0x21
  | .cvtDW fd fs => fpWord 0x14 0 fs fd 0x21
  | .cvtDL fd fs => fpWord 0x15 0 fs fd 0x21
  | .cvtWS fd fs => fpWord 0x10 0 fs fd 0x24
  | .cvtWD fd fs => fpWord 0x11 0 fs fd 0x24
  | .cvtLS fd fs => fpWord 0x10 0 fs fd 0x25
  | .cvtLD fd fs => fpWord 0x11 0 fs fd 0x25
  | .cFS fs ft => fpWord 0x10 ft fs 0 0x30
  | .cFD fs ft => fpWord 0x11 ft fs 0 0x30
  | .cUnS fs ft => fpWord 0x10 ft fs 0 0x31
  | .cUnD fs ft => fpWord 0x11 ft fs 0 0x31
  | .cEqS fs ft => fpWord 0x10 ft fs 0 0x32
  | .cEqD fs ft => fpWord 0x11 ft fs 0 0x32
  | .cUeqS fs ft => fpWord 0x10 ft fs 0 0x33
  | .cUeqD fs ft => fpWord 0x11 ft fs 0 0x33
  | .cOltS fs ft => fpWord 0x10 ft fs 0 0x34
  | .cOltD fs ft => fpWord 0x11 ft fs 0 0x34
  | .cUltS fs ft => fpWord 0x10 ft fs 0 0x35
  | .cUltD fs ft => fpWord 0x11 ft fs 0 0x35
  | .cOleS fs ft => fpWord 0x10 ft fs 0 0x36
  | .cOleD fs ft => fpWord 0x11 ft fs 0 0x36
  | .cUleS fs ft => fpWord 0x10 ft fs 0 0x37
  | .cUleD fs ft => fpWord 0x11 ft fs 0 0x37
  | .cSfS fs ft => fpWord 0x10 ft fs 0 0x38
  | .cSfD fs ft => fpWord 0x11 ft fs 0 0x38
  | .cNgleS fs ft => fpWord 0x10 ft fs 0 0x39
  | .cNgleD fs ft => fpWord 0x11 ft fs 0 0x39
  | .cSeqS fs ft => fpWord 0x10 ft fs 0 0x3A
  | .cSeqD fs ft => fpWord 0x11 ft fs 0 0x3A
  | .cNglS fs ft => fpWord 0x10 ft fs 0 0x3B
  | .cNglD fs ft => fpWord 0x11 ft fs 0 0x3B
  | .cLtS fs ft => fpWord 0x10 ft fs 0 0x3C
  | .cLtD fs ft => fpWord 0x11 ft fs 0 0x3C
  | .cNgeS fs ft => fpWord 0x10 ft fs 0 0x3D
  | .cNgeD fs ft => fpWord 0x11 ft fs 0 0x3D
  | .cLeS fs ft => fpWord 0x10 ft fs 0 0x3E
  | .cLeD fs ft => fpWord 0x11 ft fs 0 0x3E
  | .cNgtS fs ft => fpWord 0x10 ft fs 0 0x3F
  | .cNgtD fs ft => fpWord 0x11 ft fs 0 0x3F
  | .cop2 cofun => jWord 0x12 (BitVec.ofNat 26 cofun)

end Sys2Proof
end

