-- ==== Sys2Proof/Config.lean ====
section
/-! DEFINITION. What the spec leaves to the implementation (`spec/00_scope.md` R6) and the free
values (`UNSPEC`, R9). Each is an opaque constant: nothing in Lean can evaluate it, so no claim can
rest on a value of it. An argument called `draw` is the model's own counter `State.draws`, which
makes two reads in different steps independent (log 17). -/

namespace Sys2Proof

/-- `DivCorner` (R250(e), decision D23): LO and HI, in this order, after a division by zero or an
overflowing quotient, as functions of dividend and divisor. -/
structure DivCorner where
  /-- DIV: divisor zero, or `-2^31 / -1` (R253). -/
  word   : BitVec 32 → BitVec 32 → Word × Word
  /-- DIVU: divisor zero (R254). -/
  wordU  : BitVec 32 → BitVec 32 → Word × Word
  /-- DDIV: divisor zero, or `-2^63 / -1` (R257). -/
  dword  : Word → Word → Word × Word
  /-- DDIVU: divisor zero (R258). -/
  dwordU : Word → Word → Word × Word
  deriving Inhabited

namespace Config

/-- `DivCorner` of the machine (log 7). -/
opaque divCorner : DivCorner

/-- `CountInc(step)` (R515, decision D14, log 13). -/
opaque countInc : (draw : Nat) → Nat

/-- The raw generator behind `NextRandom(rng, wired, random)` (R52, decision D13, log 12). The
machine brings its index into the range R52 demands. -/
opaque nextRandom : (rng : Nat) → (wired random : BitVec 6) → BitVec 6 × Nat

/-- `CycleCost(step)`, before its lower bound 1 is enforced (R516, decision D26, log 14). -/
opaque cycleCost : (draw : Nat) → Nat

/-- Bits 15:0 of `PRID_VALUE` (R66, log 15). -/
opaque pridLow : BitVec 16

/-- Bits 15:0 of `FCR0_VALUE` (R44, log 15). -/
opaque fcr0Low : BitVec 16

/-- `CONFIG_EC` (R67, log 15). -/
opaque configEc : BitVec 3

/-- A read of a reserved CP0 register number (R73, log 16). -/
opaque cp0Reserved : (draw : Nat) → (number : Reg) → Word

/-- Bits 63:32 of a 64-bit read of a 32-bit CP0 register (R74, log 16). -/
opaque cp0Upper : (draw : Nat) → (number : Reg) → BitVec 32

/-- CFC1 of a control register other than 0 and 31 (R43, log 16). -/
opaque fcrOther : (draw : Nat) → (number : Reg) → BitVec 32

/-- `Index.Index` after a probe that finds no entry (R378, log 16). -/
opaque probeIndex : (draw : Nat) → BitVec 6

/-- Bits 63:32 of a floating-point register after a 32-bit arithmetic result (R41, log 10). -/
opaque fprUpper : (draw : Nat) → BitVec 32

/-- Sign and payload of a quiet NaN computed from quiet NaN operands (R435, log 9). -/
opaque nanPayload : (draw : Nat) → (a b : Word) → Word

/-- Whether a result that is tiny before rounding and rounds to the smallest normal counts as tiny
(R433, log 11). -/
opaque tinyBeforeRounding : (draw : Nat) → Bool

/-- `OpenBus(pa, n)`: what a bus read of `n` bytes finds where no device answers, or where a memory
holds no byte (R141, log 5). -/
opaque openBus : (pa : PAddr) → (n : Nat) → Word

/-- What a device of the `Bus` answers to the one fetch or the one data read of a step (R141, R144,
log 5). -/
opaque deviceRead : (draw : Nat) → (isFetch : Bool) → (pa : PAddr) → (n : Nat) → Word

/-- `FpUnimplemented(instruction, operands, FCR31)` of a unit that is not the default one (R6, R432,
log 8). The instruction is its `fmt` and `funct` fields; the second operand of a one-operand
instruction is 0. -/
opaque fpUnimplemented : (fmt : BitVec 5) → (funct : BitVec 6) → (a b : Word) → (fcr31 : BitVec 32) → Bool

/-- `FpResult(instruction, operands, FCR31.RM, FCR31.FS)` of such a unit: the result, and the
exceptions V Z O U I (R6, R432, log 8). -/
opaque fpResult : (fmt : BitVec 5) → (funct : BitVec 6) → (a b : Word) → (rm : BitVec 2) →
  (fs : Bool) → Word × BitVec 5

end Config

end Sys2Proof
end

