-- ==== Sys2Proof/Machine/State.lean ====
section
/-! DEFINITION. The state of the machine as plain data: every item of `spec/10_state.md`, the bytes
the bus holds, and the model's own fields: the kind of bus and of floating-point unit, and the
counter of free values. `State.reset` is the state of R91. -/

namespace Sys2Proof.Machine

/-- The four privilege modes (R80, R570). -/
inductive Mode where
  | kernel | supervisor | user | undefined
  deriving DecidableEq, Repr

/-- The four kinds of a segment (R81, R103). -/
inductive SegKind where
  | invalid | mapped | cached | uncached
  deriving DecidableEq, Repr

/-- What an access is for (R120). -/
inductive Intent where
  | fetch | load | store
  deriving DecidableEq, Repr

/-- The cache attribute of a translation; nothing in the block reads it (R120, decision D8). -/
inductive CacheAttr where
  | cached | uncached
  deriving DecidableEq, Repr

/-- The kinds of R541. -/
inductive FaultKind where
  | addressError (intent : Intent)
  | tlbMiss (intent : Intent)
  | tlbInvalid (intent : Intent)
  | tlbModified
  | reservedInstruction
  | coprocessorUnusable
  | arithmeticOverflow
  | syscall
  | breakpoint
  | trap
  | floatingPoint
  | interrupt
  deriving DecidableEq, Repr

/-- The descriptor of a fault between the step that detects it and the next dispatch (R87). -/
structure PendingFault where
  kind     : FaultKind
  /-- The coprocessor number, 0 for the other kinds. -/
  ce       : BitVec 2
  badvaddr : Option Word
  inDelay  : Bool
  savedPc  : Word
  deriving DecidableEq, Repr

/-- A branch whose delay slot executes next (R85). -/
structure BranchPending where
  target   : Word
  branchPc : Word
  deriving DecidableEq, Repr

/-- A load whose value is not yet visible (R86). -/
structure LoadPending where
  reg   : Reg
  value : Word
  deriving DecidableEq, Repr

/-- The latches of the hardware-sourced interrupt lines (R88). -/
structure IrqLines where
  irq2 : Bool
  irq3 : Bool
  irq4 : Bool
  irq5 : Bool
  irq6 : Bool
  irq7 : Bool
  deriving DecidableEq, Repr

/-- One entry of the TLB (R82). -/
structure TlbEntry where
  region : BitVec 2
  vpn2   : BitVec 27
  mask   : BitVec 12
  asid   : BitVec 8
  global : Bool
  pfn0   : BitVec 20
  c0     : BitVec 3
  d0     : Bool
  v0     : Bool
  pfn1   : BitVec 20
  c1     : BitVec 3
  d1     : Bool
  v1     : Bool
  deriving DecidableEq, Repr

/-- The system-control registers that have storage (R50). PRId is a constant, CacheError and TagHi
read zero, the interrupt levels of Cause are read live (R63). -/
structure Cp0 where
  index       : BitVec 32
  random      : BitVec 32
  entryLo0    : Word
  entryLo1    : Word
  context     : Word
  pageMask    : BitVec 32
  wired       : BitVec 32
  badVAddr    : Word
  count       : BitVec 32
  entryHi     : Word
  compare     : BitVec 32
  status      : BitVec 32
  cause       : BitVec 32
  epc         : Word
  config      : BitVec 32
  llAddr      : BitVec 32
  watchLo     : BitVec 32
  watchHi     : BitVec 32
  xContext    : Word
  parityError : BitVec 32
  tagLo       : BitVec 32
  errorEpc    : Word
  deriving DecidableEq, Repr

/-- Who owns a physical address on the bus, and so what the core sees there (R141, R148, log 5). -/
inductive BusOwner where
  /-- A memory: it keeps what is written. -/
  | ram
  /-- A memory that ignores writes. -/
  | rom
  /-- A device: a read finds any value, a write has no effect the core can see but by reading. -/
  | device
  /-- No owner: a read finds `OpenBus(pa, n)`, a write is ignored. -/
  | nobody
  deriving DecidableEq, Repr

/-- A range of physical addresses and its owner, both ends included. -/
structure BusRange where
  first : PAddr
  last  : PAddr
  owner : BusOwner
  deriving DecidableEq, Repr

/-- The floating-point unit: which `FpResult` and `FpUnimplemented` it has (R6, log 8). -/
inductive FpUnit where
  /-- The defaults of R433 to R435. -/
  | standard
  /-- Any others: the results of R436 and, outside them, the parameters of `Config`. -/
  | free
  deriving DecidableEq, Repr

/-- The whole machine. -/
structure State where
  /-- `x[0]` to `x[31]` (R20); entry 0 is never written (R21). -/
  gpr     : Vector Word 32
  hi      : Word
  lo      : Word
  pc      : Word
  /-- `LLbit` (R31). -/
  llbit   : Bool
  /-- `f[0]` to `f[31]` (R40). -/
  fpr     : Vector Word 32
  /-- Control and status of coprocessor 1 (R45). -/
  fcr31   : BitVec 32
  cp0     : Cp0
  tlb     : Vector TlbEntry 32
  /-- Branch state (R85). -/
  br      : Option BranchPending
  /-- Load-delay state (R86). -/
  ld      : Option LoadPending
  /-- The fault latch (R87). -/
  pending : Option PendingFault
  irq     : IrqLines
  /-- The timer latch (R89). -/
  timerIp : Bool
  /-- The state of the victim-index generator (R52). -/
  rng     : Nat
  /-- The bytes the memories on the bus hold, at physical addresses, strictly rising (R141,
  log 5). -/
  mem     : List Host.Cell
  /-- The model's own: the ranges of the bus that are not plain memory (R6, R141, log 5). -/
  ports   : List BusRange
  /-- The model's own: the floating-point unit (R6, log 8). -/
  fpu     : FpUnit
  /-- The model's own counter, from which free values are taken (log 17). -/
  draws   : Nat
  deriving DecidableEq, Repr

/-- What stops the machine. -/
inductive Fault where
  /-- Two or more TLB entries match a translation or a TLBP: "undefined hardware behavior", not a
  guest exception (R124, U1). Raised by a fetch, a load, a store or TLBP. Safe (log 6). -/
  | tlbMultipleMatch
  deriving DecidableEq, Repr

/-- Why an instruction has no meaning. -/
inductive Refusal where
  /-- The instruction's arm has no meaning yet. Raised by `exec` only. Safe. -/
  | notModelled (mnemonic : String)
  deriving DecidableEq, Repr

/-- What an instruction, and a step, answers. -/
abbrev Out := Host.Outcome State Fault Refusal

/-- The TLB entry number `i` at reset: the invalid entry at `0x80000000 + (i << 13)` that R606
calls the usual way (log 3). -/
def TlbEntry.initial (i : Nat) : TlbEntry where
  region := 3
  vpn2   := 0x7FC0000 + BitVec.ofNat 27 i
  mask   := 0
  asid   := 0
  global := false
  pfn0   := 0
  c0     := 0
  d0     := false
  v0     := false
  pfn1   := 0
  c1     := 0
  d1     := false
  v1     := false

/-- The system-control registers at reset (R91); a register R91 leaves unspecified is zero
(log 2). -/
def Cp0.reset : Cp0 where
  index       := 0
  random      := 31
  entryLo0    := 0
  entryLo1    := 0
  context     := 0
  pageMask    := 0
  wired       := 0
  badVAddr    := 0
  count       := 0
  entryHi     := 0
  compare     := 0
  status      := 0x00400004
  cause       := 0
  epc         := 0
  config      := 0#1 ++ Config.configEc ++ 0x006E460#28
  llAddr      := 0
  watchLo     := 0
  watchHi     := 0
  xContext    := 0
  parityError := 0
  tagLo       := 0
  errorEpc    := 0

/-- The machine right after reset (R91, R600); what R91 leaves unspecified is a value that log 1
to log 4 name, the bus is memory that holds no byte (log 5), and the floating-point unit is the default
one (log 8). -/
def State.reset : State where
  gpr     := Vector.replicate 32 0
  hi      := 0
  lo      := 0
  pc      := 0xFFFFFFFFBFC00000
  llbit   := false
  fpr     := Vector.replicate 32 0
  fcr31   := 0
  cp0     := Cp0.reset
  tlb     := Vector.ofFn fun i => TlbEntry.initial i.val
  br      := none
  ld      := none
  pending := none
  irq     := ⟨false, false, false, false, false, false⟩
  timerIp := false
  rng     := 0
  mem     := []
  ports   := []
  fpu     := .standard
  draws   := 0

end Sys2Proof.Machine
end

