-- ==== Sys2Proof/Machine/Cp0Regs.lean ====
section
/-! DEFINITION. The system-control registers as instructions see them (`spec/10_state.md` R50 to
R76): fields of Status, the live Cause, reads, masked writes and their side effects. -/

namespace Sys2Proof.Machine

/-! ### Status (R61) -/

/-- `Status.IE`. -/
def statusIe (st : BitVec 32) : Bool := st.getLsbD 0
/-- `Status.EXL`. -/
def statusExl (st : BitVec 32) : Bool := st.getLsbD 1
/-- `Status.ERL`. -/
def statusErl (st : BitVec 32) : Bool := st.getLsbD 2
/-- `Status.KSU`. -/
def statusKsu (st : BitVec 32) : BitVec 2 := st.extractLsb' 3 2
/-- `Status.UX`. -/
def statusUx (st : BitVec 32) : Bool := st.getLsbD 5
/-- `Status.SX`. -/
def statusSx (st : BitVec 32) : Bool := st.getLsbD 6
/-- `Status.KX`. -/
def statusKx (st : BitVec 32) : Bool := st.getLsbD 7
/-- `Status.IM7..IM0`. -/
def statusIm (st : BitVec 32) : BitVec 8 := st.extractLsb' 8 8
/-- `Status.BEV`. -/
def statusBev (st : BitVec 32) : Bool := st.getLsbD 22
/-- `Status.CU0`. -/
def statusCu0 (st : BitVec 32) : Bool := st.getLsbD 28
/-- `Status.CU1`. -/
def statusCu1 (st : BitVec 32) : Bool := st.getLsbD 29

/-- The mode, a function of Status (R80, R570). -/
def modeOf (st : BitVec 32) : Mode :=
  if statusExl st || statusErl st then .kernel
  else if statusKsu st = 0 then .kernel
  else if statusKsu st = 1 then .supervisor
  else if statusKsu st = 2 then .user
  else .undefined

/-- The current mode. -/
def State.mode (s : State) : Mode := modeOf s.cp0.status

/-- `CopUsable(0)` (R572). -/
def State.copUsable0 (s : State) : Bool := s.mode = .kernel || statusCu0 s.cp0.status

/-- `CopUsable(1)` (R572). -/
def State.copUsable1 (s : State) : Bool := statusCu1 s.cp0.status

/-- `Ops64()` (R573). -/
def State.ops64 (s : State) : Bool :=
  match s.mode with
  | .kernel => true
  | .supervisor => statusSx s.cp0.status
  | .user => statusUx s.cp0.status
  | .undefined => false

/-- `XAddr()` (R550). -/
def State.xAddr (s : State) : Bool :=
  match s.mode with
  | .kernel => statusKx s.cp0.status
  | .supervisor => statusSx s.cp0.status
  | .user => statusUx s.cp0.status
  | .undefined => false

/-! ### Cause (R63) -/

/-- The levels of the lines 7 to 2, the timer latch ORed into line 7 (R88, R89). -/
def State.hardwareIp (s : State) : BitVec 6 :=
  BitVec.ofBool (s.irq.irq7 || s.timerIp) ++ BitVec.ofBool s.irq.irq6 ++
    BitVec.ofBool s.irq.irq5 ++ BitVec.ofBool s.irq.irq4 ++ BitVec.ofBool s.irq.irq3 ++
    BitVec.ofBool s.irq.irq2

/-- Cause as a read sees it: the stored bits with IP7..IP2 live. -/
def State.cause (s : State) : BitVec 32 :=
  s.cp0.cause.extractLsb' 16 16 ++ s.hardwareIp ++ s.cp0.cause.extractLsb' 0 10

/-- `Cause.IP7..IP0` (R555). -/
def State.causeIp (s : State) : BitVec 8 := s.cause.extractLsb' 8 8

/-! ### Reads -/

/-- PRId (R66). -/
def pridValue : BitVec 32 := 0#16 ++ Config.pridLow

/-- What a register number names: its full value (R50). -/
inductive Cp0Value where
  | narrow (v : BitVec 32)
  | wide (v : Word)
  | reserved
  deriving DecidableEq, Repr

/-- The value of a CP0 register (R50 to R73). -/
def State.cp0Value (s : State) (n : Reg) : Cp0Value :=
  match n with
  | 0#5 => .narrow s.cp0.index
  | 1#5 => .narrow s.cp0.random
  | 2#5 => .wide s.cp0.entryLo0
  | 3#5 => .wide s.cp0.entryLo1
  | 4#5 => .wide s.cp0.context
  | 5#5 => .narrow s.cp0.pageMask
  | 6#5 => .narrow s.cp0.wired
  | 8#5 => .wide s.cp0.badVAddr
  | 9#5 => .narrow s.cp0.count
  | 10#5 => .wide s.cp0.entryHi
  | 11#5 => .narrow s.cp0.compare
  | 12#5 => .narrow s.cp0.status
  | 13#5 => .narrow s.cause
  | 14#5 => .wide s.cp0.epc
  | 15#5 => .narrow pridValue
  | 16#5 => .narrow s.cp0.config
  | 17#5 => .narrow s.cp0.llAddr
  | 18#5 => .narrow s.cp0.watchLo
  | 19#5 => .narrow s.cp0.watchHi
  | 20#5 => .wide s.cp0.xContext
  | 26#5 => .narrow s.cp0.parityError
  | 27#5 => .narrow 0
  | 28#5 => .narrow s.cp0.tagLo
  | 29#5 => .narrow 0
  | 30#5 => .wide s.cp0.errorEpc
  | _ => .reserved

/-- `ReadCP0_64(n)`: bits 63:32 of a 32-bit register, and a reserved register, are free values
(R73, R74, log 16). -/
def State.readCp0Wide (s : State) (n : Reg) : Word :=
  match s.cp0Value n with
  | .narrow v => Config.cp0Upper s.draws n ++ v
  | .wide v => v
  | .reserved => Config.cp0Reserved s.draws n

/-- `ReadCP0_32(n)`: `sext_64` of bits 31:0 (R74). -/
def State.readCp0Narrow (s : State) (n : Reg) : Word :=
  match s.cp0Value n with
  | .narrow v => v.signExtend 64
  | .wide v => (v.extractLsb' 0 32).signExtend 64
  | .reserved => ((Config.cp0Reserved s.draws n).extractLsb' 0 32).signExtend 64

/-! ### Writes -/

/-- The bits of `mask` from `v`, the others from `old` (R74). -/
def maskedWrite {n : Nat} (old mask v : BitVec n) : BitVec n := (old &&& ~~~mask) ||| (v &&& mask)

/-- The registers after `WriteCP0(n, v)` (R74, R75), with the side effect on Random (R76). Config.BE
(bit 15 of register 16) takes what software writes and reads it back, and nothing else depends on it:
R67 calls it storage, D3 and U23 say it reads 1, and the model's choice is R67's storage (DESIGN
CHOICE, log 23). -/
def Cp0.write (c : Cp0) (n : Reg) (v : Word) : Cp0 :=
  let w : BitVec 32 := v.extractLsb' 0 32
  match n with
  | 0#5 => { c with index := maskedWrite c.index 0x8000003F w }
  | 2#5 => { c with entryLo0 := maskedWrite c.entryLo0 0x03FFFFFF v }
  | 3#5 => { c with entryLo1 := maskedWrite c.entryLo1 0x03FFFFFF v }
  | 4#5 => { c with context := maskedWrite c.context 0xFFFFFFFFFF800000 v }
  | 5#5 => { c with pageMask := maskedWrite c.pageMask 0x01FFE000 w }
  | 6#5 => { c with wired := maskedWrite c.wired 0x3F w, random := 31 }
  | 9#5 => { c with count := w }
  | 10#5 => { c with entryHi := maskedWrite c.entryHi 0xC00000FFFFFFE0FF v }
  | 11#5 => { c with compare := w }
  | 12#5 => { c with status := maskedWrite c.status 0xFF57FFFF w }
  | 13#5 => { c with cause := maskedWrite c.cause 0x00000300 w }
  | 14#5 => { c with epc := v }
  | 16#5 => { c with config := maskedWrite c.config 0x0F00800F w }
  | 17#5 => { c with llAddr := w }
  | 18#5 => { c with watchLo := maskedWrite c.watchLo 0xFFFFFFFB w }
  | 19#5 => { c with watchHi := maskedWrite c.watchHi 0xF w }
  | 20#5 => { c with xContext := maskedWrite c.xContext 0xFFFFFFFE00000000 v }
  | 26#5 => { c with parityError := maskedWrite c.parityError 0xFF w }
  | 28#5 => { c with tagLo := maskedWrite c.tagLo 0x0FFFFFC0 w }
  | 30#5 => { c with errorEpc := v }
  | _ => c

/-- `WriteCP0(n, v)`: a write to Compare clears the timer latch (R60, R76, R89). The mode is a
function of Status, so `setMode()` needs no action (R62, R81). -/
def State.writeCp0 (s : State) (n : Reg) (v : Word) : State :=
  { s with cp0 := s.cp0.write n v, timerIp := if n = 11#5 then false else s.timerIp }

end Sys2Proof.Machine
end

