-- ==== Sys2Proof/Machine/Memory.lean ====
section
/-! DEFINITION. The bus (`spec/20_memory.md` R130, R140 to R143, log 5): the bytes of its memories as a
list of (physical address, byte), strictly rising, with no entry for a byte nobody has written; the
owner of an address; reads and writes of 1 to 8 bytes, big-endian. -/

namespace Sys2Proof.Machine

/-- The canonical form: addresses of the physical space (R100), strictly rising. -/
def Memory.wf (m : List Host.Cell) : Bool :=
  match m with
  | [] => true
  | (k, _) :: rest =>
    decide (k < 2 ^ 32) &&
      (match rest with
        | [] => true
        | (k', _) :: _ => decide (k < k')) &&
      Memory.wf rest

/-- The byte held at an address, if any. -/
def Memory.byteAt (m : List Host.Cell) (a : Nat) : Option Byte :=
  match m with
  | [] => none
  | (k, b) :: rest => if k = a then some b else Memory.byteAt rest a

/-- Hold byte `b` at address `a`. -/
def Memory.setByte (m : List Host.Cell) (a : Nat) (b : Byte) : List Host.Cell :=
  match m with
  | [] => [(a, b)]
  | (k, c) :: rest =>
    if a < k then (a, b) :: (k, c) :: rest
    else if a = k then (a, b) :: rest
    else (k, c) :: Memory.setByte rest a b

/-- The address of byte `i` of an access at `pa`, within the 32-bit space (R100). -/
def Memory.addr (pa : PAddr) (i : Nat) : Nat := (pa + BitVec.ofNat 32 i).toNat

/-- Byte `i` of an `n`-byte value, byte 0 the most significant (R130, R142). -/
def Memory.byteOf (v : Word) (n i : Nat) : Byte := v.extractLsb' (8 * (n - 1 - i)) 8

/-- The last `k` of the `n` bytes `byte 0` to `byte (n - 1)`, appended to `acc`. -/
def Memory.joinLast (byte : Nat → Byte) (n : Nat) : Nat → Word → Word
  | 0, acc => acc
  | k + 1, acc => Memory.joinLast byte n k ((acc <<< 8) ||| (byte (n - (k + 1))).setWidth 64)

/-- The `n` bytes `byte 0` to `byte (n - 1)` as one value, byte 0 the most significant (R142). -/
def Memory.join (byte : Nat → Byte) (n : Nat) : Word := Memory.joinLast byte n n 0

/-- Write the last `k` bytes of the `n`-byte value `v` at `pa`. -/
def Memory.writeLast (pa : PAddr) (n : Nat) (v : Word) : Nat → List Host.Cell → List Host.Cell
  | 0, m => m
  | k + 1, m =>
    Memory.writeLast pa n v k
      (Memory.setByte m (Memory.addr pa (n - (k + 1))) (Memory.byteOf v n (n - (k + 1))))

/-- The low `n` bytes of `v` held at `pa`, the most significant at `pa` (R143). -/
def Memory.write (m : List Host.Cell) (pa : PAddr) (n : Nat) (v : Word) : List Host.Cell :=
  Memory.writeLast pa n v n m

/-! ### The bus (R140, R141) -/

/-- Who owns an address: the first range that holds it, else a memory (log 5). -/
def State.owner (s : State) (pa : PAddr) : BusOwner :=
  match s.ports.find? fun r => decide (r.first ≤ pa ∧ pa ≤ r.last) with
  | some r => r.owner
  | none => .ram

/-- Byte `i` of a bus read of `n` bytes at `pa`, the fetch or the data read of the step: what the
owner of `pa` gives. A memory gives the byte it holds, else that of the open bus (R141, log 5). -/
def State.busByte (s : State) (isFetch : Bool) (pa : PAddr) (n i : Nat) : Byte :=
  let floating := Memory.byteOf (Config.openBus pa n) n i
  match s.owner pa with
  | .ram | .rom => (Memory.byteAt s.mem (Memory.addr pa i)).getD floating
  | .device => Memory.byteOf (Config.deviceRead s.draws isFetch pa n) n i
  | .nobody => floating

/-- `MemRead(pa, n)` of a fetch, zero-extended (R142, R147). -/
def State.fetchBus (s : State) (pa : PAddr) (n : Nat) : Word := Memory.join (s.busByte true pa n) n

/-- `MemRead(pa, n)` of a load, zero-extended (R142). -/
def State.readBus (s : State) (pa : PAddr) (n : Nat) : Word := Memory.join (s.busByte false pa n) n

/-- `MemWrite(pa, n, v)` (R143): performed by a memory; any other owner leaves nothing that the core
sees (R141, log 5). -/
def State.store (pa : PAddr) (n : Nat) (v : Word) (s : State) : State :=
  { s with mem := if s.owner pa = .ram then Memory.write s.mem pa n v else s.mem }

end Sys2Proof.Machine
end

