-- ==== Sys2Proof/Machine/Operands.lean ====
section
/-! DEFINITION. Every operand form: general registers and the load still in its delay slot
(`spec/10_state.md` R20, R21, `spec/50_pipeline.md` R510, R511), floating-point registers under
`Status.FR` (R41, R42), immediates, shift amounts, effective addresses and branch targets
(`spec/30_encoding.md` R167). -/

namespace Sys2Proof.Machine

/-! ### General registers -/

/-- `x[r]`: register 0 reads zero, a pending load is not seen (R21, R510). -/
def State.readGpr (s : State) (r : Reg) : Word :=
  if r = 0 then 0 else s.gpr[r.toNat]'r.isLt

/-- `x[r] <- v`: a write to register 0 is dropped (R21). -/
def State.setGpr (s : State) (r : Reg) (v : Word) : State :=
  if r = 0 then s else { s with gpr := s.gpr.set r.toNat v r.isLt }

/-- `xm[r]`, the merge source of the partial loads (R300(f), R511(c)). -/
def State.mergeSource (s : State) (r : Reg) : Word :=
  match s.ld with
  | some l => if l.reg = r then l.value else s.readGpr r
  | none => s.readGpr r

/-- The load of the previous instruction reaches its register (R504, 3a). -/
def State.commitLoad (s : State) : State :=
  match s.ld with
  | some l => { s.setGpr l.reg l.value with ld := none }
  | none => s

/-- `LoadDelay(r, v)` (R21, R504, 3c). -/
def State.delayLoad (s : State) (r : Reg) (v : Word) : State :=
  { s with ld := if r = 0 then none else some ⟨r, v⟩ }

/-! ### Words within a register -/

/-- Bits 31:0 (R200(d), R250(c)). -/
def lowWord (v : Word) : BitVec 32 := v.extractLsb' 0 32

/-- `sext_64` of a 32-bit value (R8). -/
def sext32 (v : BitVec 32) : Word := v.signExtend 64

/-- A truth value as a 64-bit 0 or 1 (R203, R332). -/
def ofFlag (b : Bool) : Word := if b then 1 else 0

/-! ### Immediates, shift amounts, addresses (R167) -/

/-- `sext_64(imm)`. -/
def sextImm (imm : BitVec 16) : Word := imm.signExtend 64

/-- `sext_32(imm)` (R201). -/
def sextImm32 (imm : BitVec 16) : BitVec 32 := imm.signExtend 32

/-- `zext_64(imm)`. -/
def zextImm (imm : BitVec 16) : Word := imm.setWidth 64

/-- `sext_64(imm || 0^16)` (R208). -/
def upperImm (imm : BitVec 16) : Word := sext32 (imm ++ 0#16)

/-- The variable amount of a word shift, `v[4:0]` (R228). -/
def shiftAmount5 (v : Word) : Nat := (v.extractLsb' 0 5).toNat

/-- The variable amount of a doubleword shift, `v[5:0]` (R234). -/
def shiftAmount6 (v : Word) : Nat := (v.extractLsb' 0 6).toNat

/-- `EA = x[base] + sext_64(imm)` (R300(b)). -/
def State.effectiveAddress (s : State) (base : Reg) (imm : BitVec 16) : Word :=
  s.readGpr base + sextImm imm

/-- The target of a taken conditional branch (R270(e)). -/
def branchTarget (pc : Word) (imm : BitVec 16) : Word := pc + 4 + (imm ++ 0#2).signExtend 64

/-- The target of J and JAL (R271). -/
def jumpTarget (pc : Word) (target : BitVec 26) : Word :=
  (pc + 4).extractLsb' 28 36 ++ target ++ 0#2

/-! ### Floating-point registers -/

/-- `Status.FR` (R61). -/
def State.fr (s : State) : Bool := s.cp0.status.getLsbD 26

/-- The even register of the pair a number names when `FR = 0`. -/
def evenOf (i : Reg) : Reg := i &&& 0x1E

/-- The register that a 64-bit access, and a 32-bit arithmetic result, addresses (R41, R42, U14,
log 18). -/
def State.fprIndex (s : State) (i : Reg) : Reg := if s.fr then i else evenOf i

/-- Whether a 32-bit access names the upper half of an even register (R41). -/
def State.upperHalf (s : State) (i : Reg) : Bool := !s.fr && i.getLsbD 0

/-- The 64 bits of a floating-point register. -/
def State.readFpr (s : State) (i : Reg) : Word := s.fpr[i.toNat]'i.isLt

/-- All 64 bits of a floating-point register. -/
def State.setFpr (s : State) (i : Reg) (v : Word) : State :=
  { s with fpr := s.fpr.set i.toNat v i.isLt }

/-- `f64[i]` (R42). -/
def State.readF64 (s : State) (i : Reg) : Word := s.readFpr (s.fprIndex i)

/-- `f64[i] <- v` (R42). -/
def State.writeF64 (s : State) (i : Reg) (v : Word) : State := s.setFpr (s.fprIndex i) v

/-- `f32[i]` (R41). -/
def State.readF32 (s : State) (i : Reg) : BitVec 32 :=
  if s.upperHalf i then (s.readF64 i).extractLsb' 32 32 else (s.readF64 i).extractLsb' 0 32

/-- `f32[i] <- v`, the move and load form: the other half is unchanged (R41). -/
def State.writeF32Move (s : State) (i : Reg) (v : BitVec 32) : State :=
  if s.upperHalf i then s.writeF64 i (v ++ (s.readF64 i).extractLsb' 0 32)
  else s.writeF64 i ((s.readF64 i).extractLsb' 32 32 ++ v)

/-- `f32[i] <- v`, the arithmetic-result form: bits 63:32 become a free value (R41, log 10). -/
def State.writeF32Arith (s : State) (i : Reg) (v : BitVec 32) : State :=
  s.writeF64 i (Config.fprUpper s.draws ++ v)

end Sys2Proof.Machine
end

