-- ==== Sys2Proof/Machine/Ops.lean ====
section
/-! DEFINITION. The named operations every meaning is written with: writeback and pc update
(`spec/50_pipeline.md` R504 to R509), raising a fault (R512), taking an exception and returning
from one (`spec/60_exceptions.md` R550 to R561), translation (`spec/20_memory.md` R120 to R123),
virtual loads and stores (R145, R146), the fetch (R147), the TLB, the dispatch and advise phases
(R501, R515). -/

namespace Sys2Proof.Machine

/-! ### The end of an instruction -/

/-- The pc update of an instruction that is not a branch (R505, R507). -/
def State.advance (s : State) : State :=
  match s.br with
  | none => { s with pc := s.pc + 4 }
  | some b => { s with pc := b.target, br := none }

/-- `Branch(target)` (R506); in a delay slot the pc becomes the pending target (R509). -/
def State.branchTo (target : Word) (s : State) : State :=
  { s with
    br := some ⟨target, s.pc⟩
    pc := match s.br with
      | none => s.pc + 4
      | some b => b.target }

/-- `NullifyDelaySlot()` (R508); in a delay slot nothing is nullified (R509). -/
def State.nullifySlot (s : State) : State :=
  { s with
    br := none
    pc := match s.br with
      | none => s.pc + 8
      | some b => b.target }

/-- An instruction that completes: the pending load commits, then its own writes `f`, then the pc
(R504). -/
def complete (f : State → State) (s : State) : Out := .next (f s.commitLoad).advance

/-- An instruction that writes `x[rd]` directly. -/
def writeBack (rd : Reg) (v : Word) (s : State) : Out := complete (·.setGpr rd v) s

/-- An instruction that calls `LoadDelay(rt, v)`. -/
def loadBack (rt : Reg) (v : Word) (s : State) : Out := complete (·.delayLoad rt v) s

/-- A branch or jump that calls `Branch(target)`, after its link writes `f`. -/
def completeBranch (f : State → State) (target : Word) (s : State) : Out :=
  .next ((f s.commitLoad).branchTo target)

/-- A branch-likely that is not taken, after its link writes `f`. -/
def completeNullify (f : State → State) (s : State) : Out := .next (f s.commitLoad).nullifySlot

/-- A conditional branch: taken, or `Branch(pc + 8)` (R270(c)). -/
def condBranch (taken : Bool) (f : State → State) (imm : BitVec 16) (s : State) : Out :=
  completeBranch f (if taken then branchTarget s.pc imm else s.pc + 8) s

/-- A conditional branch-likely: taken, or `NullifyDelaySlot()` (R270(d)). -/
def condBranchLikely (taken : Bool) (f : State → State) (imm : BitVec 16) (s : State) : Out :=
  if taken then completeBranch f (branchTarget s.pc imm) s else completeNullify f s

/-- The link write `x[rd] <- pc + 8` of an instruction at `pc` (R270(f)). -/
def State.link (rd : Reg) (pc : Word) (s : State) : State := s.setGpr rd (pc + 8)

/-! ### Raising a fault -/

/-- The descriptor of a fault of the current instruction (R512). -/
def State.faultRecord (s : State) (kind : FaultKind) (ce : BitVec 2) (bad : Option Word) :
    PendingFault where
  kind     := kind
  ce       := ce
  badvaddr := bad
  inDelay  := s.br.isSome
  savedPc  := match s.br with
    | some b => b.branchPc
    | none => s.pc

/-- The state a raised fault leaves: the pending load commits, the latch is filled, nothing else is
written (R512). -/
def State.raised (s : State) (kind : FaultKind) (ce : BitVec 2) (bad : Option Word) : State :=
  { s.commitLoad with pending := some (s.faultRecord kind ce bad), br := none }

/-- `raise kind` for a kind that carries nothing. -/
def raise (kind : FaultKind) (s : State) : Out := .next (s.raised kind 0 none)

/-- `raise kind(va)`. -/
def raiseAt (kind : FaultKind) (va : Word) (s : State) : Out := .next (s.raised kind 0 (some va))

/-- `raise CoprocessorUnusable(n)`. -/
def raiseCop (n : BitVec 2) (s : State) : Out := .next (s.raised .coprocessorUnusable n none)

/-- The test of `Ops64()` before a 64-bit operation (R177, R547(b)). -/
def withOps64 (s : State) (k : Out) : Out := if s.ops64 then k else raise .reservedInstruction s

/-- The test of `CopUsable(0)` (R370(a)). -/
def withCop0 (s : State) (k : Out) : Out := if s.copUsable0 then k else raiseCop 0 s

/-- The test of `CopUsable(1)` (R400(a)). -/
def withCop1 (s : State) (k : Out) : Out := if s.copUsable1 then k else raiseCop 1 s

/-! ### Taking an exception, and returning from one -/

/-- `Cause.ExcCode` (R542). -/
def excCode (kind : FaultKind) : BitVec 5 :=
  match kind with
  | .interrupt => 0
  | .tlbModified => 1
  | .tlbMiss .store => 3
  | .tlbMiss _ => 2
  | .tlbInvalid .store => 3
  | .tlbInvalid _ => 2
  | .addressError .store => 5
  | .addressError _ => 4
  | .syscall => 8
  | .breakpoint => 9
  | .reservedInstruction => 10
  | .coprocessorUnusable => 11
  | .arithmeticOverflow => 12
  | .trap => 13
  | .floatingPoint => 15

/-- Whether the kind is a TLB miss, which uses a refill vector (R550). -/
def isRefill (kind : FaultKind) : Bool :=
  match kind with
  | .tlbMiss _ => true
  | _ => false

/-- Context with `BadVPN2` taken from `va` (R54, R552). -/
def contextWith (old va : Word) : Word := old.extractLsb' 23 41 ++ va.extractLsb' 13 19 ++ 0#4

/-- XContext with `R` and `BadVPN2` taken from `va` (R70, R552). -/
def xContextWith (old va : Word) : Word :=
  old.extractLsb' 33 31 ++ va.extractLsb' 62 2 ++ va.extractLsb' 13 27 ++ 0#4

/-- EntryHi with `R` and `VPN2` taken from `va` (R58, R552). -/
def entryHiWith (old va : Word) : Word :=
  va.extractLsb' 62 2 ++ 0#22 ++ va.extractLsb' 13 27 ++ 0#5 ++ old.extractLsb' 0 8

/-- What an exception records of a bad address (R552). -/
def Cp0.recordBadAddress (c : Cp0) (kind : FaultKind) (bad : Option Word) : Cp0 :=
  match kind, bad with
  | .addressError _, some va => { c with badVAddr := va }
  | .tlbMiss _, some va | .tlbInvalid _, some va | .tlbModified, some va =>
    { c with
      badVAddr := va
      context  := contextWith c.context va
      xContext := xContextWith c.xContext va
      entryHi  := entryHiWith c.entryHi va }
  | _, _ => c

/-- Cause after an exception: CE and ExcCode always, BD only when EXL was 0 (R550, R561). -/
def causeAfter (old : BitVec 32) (bd : Bool) (ce : BitVec 2) (code : BitVec 5) : BitVec 32 :=
  BitVec.ofBool bd ++ 0#1 ++ ce ++ 0#12 ++ old.extractLsb' 8 8 ++ 0#1 ++ code ++ 0#2

/-- The offset of the vector (R550, R551). -/
def State.vectorOffset (s : State) (kind : FaultKind) : Word :=
  if statusExl s.cp0.status then 0x180
  else if isRefill kind then (if s.xAddr then 0x080 else 0x000)
  else 0x180

/-- The base of the vectors (R551). -/
def vectorBase (st : BitVec 32) : Word :=
  if statusBev st then 0xFFFFFFFFBFC00200 else 0xFFFFFFFF80000000

/-- `ExceptionEntry(kind, ce, badvaddr, in_delay, saved_pc)` (R550). -/
def State.exceptionEntry (s : State) (p : PendingFault) : State :=
  let nested := statusExl s.cp0.status
  let c := s.cp0.recordBadAddress p.kind p.badvaddr
  { s with
    cp0 := { c with
      epc    := if nested then c.epc else p.savedPc
      cause  := causeAfter c.cause (if nested then c.cause.getLsbD 31 else p.inDelay) p.ce
        (excCode p.kind)
      status := c.status ||| 0x2 }
    pc := vectorBase s.cp0.status + s.vectorOffset p.kind
    br := none }

/-- The effect of ERET (R379, R560): ErrorEPC and ERL when `ERL = 1`, else EPC and EXL; `LLbit` is
cleared, the pending branch is dropped, there is no delay slot. -/
def State.exceptionReturn (s : State) : State :=
  if statusErl s.cp0.status then
    { s with
      cp0   := { s.cp0 with status := s.cp0.status &&& 0xFFFFFFFB }
      pc    := s.cp0.errorEpc
      llbit := false
      br    := none }
  else
    { s with
      cp0   := { s.cp0 with status := s.cp0.status &&& 0xFFFFFFFD }
      pc    := s.cp0.epc
      llbit := false
      br    := none }

/-! ### The dispatch phase -/

/-- `InterruptCondition()` (R556). -/
def State.interruptCondition (s : State) : Bool :=
  statusIe s.cp0.status && !statusExl s.cp0.status && !statusErl s.cp0.status &&
    decide (s.causeIp &&& statusIm s.cp0.status ≠ 0)

/-- Dispatch: a pending fault, else an enabled interrupt, else nothing (R501). -/
def State.dispatch (s : State) : State :=
  match s.pending with
  | some p => { s.exceptionEntry p with pending := none }
  | none =>
    if s.interruptCondition then s.exceptionEntry (s.faultRecord .interrupt 0 none) else s

/-! ### Address translation -/

/-- What a translation answers (R120). -/
inductive Translation where
  | physical (pa : PAddr) (attr : CacheAttr)
  | raises (kind : FaultKind)
  | multipleMatch
  deriving DecidableEq, Repr

/-- `SegTable(mode)[window]` (R103). -/
def segKind (m : Mode) (window : BitVec 3) : SegKind :=
  match window with
  | 4#3 => if m = .kernel then .cached else .invalid
  | 5#3 => if m = .kernel then .uncached else .invalid
  | 6#3 => if m = .kernel ∨ m = .supervisor then .mapped else .invalid
  | 7#3 => if m = .kernel then .mapped else .invalid
  | _ => .mapped

/-- A sign-extended 32-bit address (R101). -/
def inRange (va : Word) : Bool := va.extractLsb' 31 33 = 0 || va.extractLsb' 31 33 = BitVec.allOnes 33

/-- The VPN2 bits an entry compares: those its page mask leaves (R121). -/
def TlbEntry.vpnMask (e : TlbEntry) : BitVec 27 := ~~~(e.mask.setWidth 27)

/-- `Match(e, va)` with the current ASID (R121). -/
def TlbEntry.matchesVa (e : TlbEntry) (asid : BitVec 8) (va : Word) : Bool :=
  e.region = va.extractLsb' 62 2 &&
    e.vpn2 &&& e.vpnMask = va.extractLsb' 13 27 &&& e.vpnMask &&
    (e.global || e.asid = asid)

/-- `EntryHi.ASID` (R58). -/
def State.asid (s : State) : BitVec 8 := s.cp0.entryHi.extractLsb' 0 8

/-- The entries that match, each with its index (R120, step 5). -/
def State.tlbHits (s : State) (va : Word) : List (TlbEntry × Nat) :=
  s.tlb.toList.zipIdx.filter fun e => e.1.matchesVa s.asid va

/-- The offset mask of one page of an entry (R122). -/
def TlbEntry.pageOffset (e : TlbEntry) : PAddr := (e.mask.setWidth 32 <<< 12) ||| 0xFFF

/-- Whether the address falls in the odd page (R122). -/
def TlbEntry.oddPage (e : TlbEntry) (va : Word) : Bool :=
  decide (va.extractLsb' 0 32 &&& (e.pageOffset + 1) ≠ 0)

/-- `PhysAddr(e, PFN, va)` (R122). -/
def TlbEntry.physAddr (e : TlbEntry) (pfn : BitVec 20) (va : Word) : PAddr :=
  ((pfn ++ 0#12) &&& ~~~e.pageOffset) ||| (va.extractLsb' 0 32 &&& e.pageOffset)

/-- `attr(C)` (R120). -/
def cacheAttrOf (c : BitVec 3) : CacheAttr := if c = 2 then .uncached else .cached

/-- The access of one half of a matching entry: V before D (R120, R123). -/
def TlbEntry.access (e : TlbEntry) (intent : Intent) (va : Word) : Translation :=
  let half := if e.oddPage va then (e.pfn1, e.c1, e.d1, e.v1) else (e.pfn0, e.c0, e.d0, e.v0)
  if !half.2.2.2 then .raises (.tlbInvalid intent)
  else if intent = .store && !half.2.2.1 then .raises .tlbModified
  else .physical (e.physAddr half.1 va) (cacheAttrOf half.2.1)

/-- The address a direct window maps to: `va[28:0]` (R120, step 4). -/
def directAddr (va : Word) : PAddr := 0#3 ++ va.extractLsb' 0 29

/-- `Translate(va, intent)` (R120). -/
def State.translate (s : State) (va : Word) (intent : Intent) : Translation :=
  if !inRange va then .raises (.addressError intent)
  else match segKind s.mode (va.extractLsb' 29 3) with
    | .invalid => .raises (.addressError intent)
    | .cached => .physical (directAddr va) .cached
    | .uncached => .physical (directAddr va) .uncached
    | .mapped =>
      match s.tlbHits va with
      | [] => .raises (.tlbMiss intent)
      | [e] => e.1.access intent va
      | _ => .multipleMatch

/-! ### Virtual accesses and the fetch -/

/-- Continue at the physical address of `va`, or raise what the translation raises. -/
def withTranslation (intent : Intent) (va : Word) (s : State) (k : PAddr → Out) : Out :=
  match s.translate va intent with
  | .physical pa _ => k pa
  | .raises kind => raiseAt kind va s
  | .multipleMatch => .fault .tlbMultipleMatch

/-- The alignment check, which precedes the translation (R131, R132). -/
def withAligned (intent : Intent) (n : Nat) (va : Word) (s : State) (k : PAddr → Out) : Out :=
  if va.toNat % n = 0 then withTranslation intent va s k else raiseAt (.addressError intent) va s

/-- `LoadVirt(va, n)` (R145). -/
def loadVirt (n : Nat) (va : Word) (s : State) (k : Word → Out) : Out :=
  withAligned .load n va s fun pa => k (s.readBus pa n)

/-- `StoreVirt(va, n, v)` of an instruction that does nothing else (R146). -/
def storeVirt (n : Nat) (va : Word) (v : Word) (s : State) : Out :=
  withAligned .store n va s fun pa => complete (·.store pa n v) s

/-- What the fetch answers (R502). -/
inductive Fetched where
  | word (w : BitVec 32)
  | raises (kind : FaultKind)
  | multipleMatch
  deriving DecidableEq, Repr

/-- The fetch at the pc (R147, R502). -/
def State.fetchWord (s : State) : Fetched :=
  if s.pc.toNat % 4 = 0 then
    match s.translate s.pc .fetch with
    | .physical pa _ => .word ((s.fetchBus pa 4).extractLsb' 0 32)
    | .raises kind => .raises kind
    | .multipleMatch => .multipleMatch
  else .raises (.addressError .fetch)

/-! ### The TLB instructions -/

/-- One half of an entry as EntryLo shows it (R53, R375). -/
def entryLoOf (pfn : BitVec 20) (c : BitVec 3) (d v g : Bool) : Word :=
  0#38 ++ pfn ++ c ++ BitVec.ofBool d ++ BitVec.ofBool v ++ BitVec.ofBool g

/-- EntryHi as TLBR leaves it (R58, R375). -/
def entryHiOf (e : TlbEntry) : Word := e.region ++ 0#22 ++ e.vpn2 ++ 0#5 ++ e.asid

/-- PageMask as TLBR leaves it (R55, R375). -/
def pageMaskOf (e : TlbEntry) : BitVec 32 := 0#7 ++ e.mask ++ 0#13

/-- An entry by its 5-bit slot number (R83). -/
def State.tlbEntry (s : State) (i : BitVec 5) : TlbEntry := s.tlb[i.toNat]'i.isLt

/-- The effect of TLBR on the registers (R375). -/
def Cp0.readTlb (c : Cp0) (e : TlbEntry) : Cp0 :=
  { c with
    pageMask := pageMaskOf e
    entryHi  := entryHiOf e
    entryLo0 := entryLoOf e.pfn0 e.c0 e.d0 e.v0 e.global
    entryLo1 := entryLoOf e.pfn1 e.c1 e.d1 e.v1 e.global }

/-- The entry `WriteTLB` writes (R376). -/
def Cp0.tlbImage (c : Cp0) : TlbEntry where
  region := c.entryHi.extractLsb' 62 2
  vpn2   := c.entryHi.extractLsb' 13 27 &&& ~~~((c.pageMask.extractLsb' 13 12).setWidth 27)
  mask   := c.pageMask.extractLsb' 13 12
  asid   := c.entryHi.extractLsb' 0 8
  global := c.entryLo0.getLsbD 0 && c.entryLo1.getLsbD 0
  pfn0   := c.entryLo0.extractLsb' 6 20
  c0     := c.entryLo0.extractLsb' 3 3
  d0     := c.entryLo0.getLsbD 2
  v0     := c.entryLo0.getLsbD 1
  pfn1   := c.entryLo1.extractLsb' 6 20
  c1     := c.entryLo1.extractLsb' 3 3
  d1     := c.entryLo1.getLsbD 2
  v1     := c.entryLo1.getLsbD 1

/-- `WriteTLB(i)` (R376). -/
def State.writeTlb (i : BitVec 5) (s : State) : State :=
  { s with tlb := s.tlb.set i.toNat s.cp0.tlbImage i.isLt }

/-- The slot `Index.Index[4:0]` (R83). -/
def State.indexSlot (s : State) : BitVec 5 := s.cp0.index.extractLsb' 0 5

/-- The slot `Random.Random[4:0]` (R83). -/
def State.randomSlot (s : State) : BitVec 5 := s.cp0.random.extractLsb' 0 5

/-- The effect of TLBP that found `found` (R378). -/
def State.setProbe (found : Option Nat) (s : State) : State :=
  { s with cp0 := { s.cp0 with
      index := match found with
        | some i => BitVec.ofNat 32 i
        | none => 1#1 ++ 0#25 ++ Config.probeIndex s.draws } }

/-! ### The advise phase -/

/-- `NextRandom`, brought into `Wired <= Random <= 31` when `Wired <= 31` (R52, log 12). -/
def nextRandomIndex (rng : Nat) (wired random : BitVec 6) : BitVec 6 :=
  let r := (Config.nextRandom rng wired random).1
  if wired ≤ 31 then (if wired ≤ r ∧ r ≤ 31 then r else 31) else r

/-- The Count passed or reached Compare (R515). -/
def timerFires (old compare : BitVec 32) (inc : Nat) : Bool :=
  decide (1 ≤ inc ∧ (compare - old - 1).toNat < inc)

/-- The advise phase: Count, the timer latch, Random (R515); the model's counter of free values
advances too (log 17). -/
def State.advise (s : State) : State :=
  let inc := Config.countInc s.draws
  let wired := s.cp0.wired.extractLsb' 0 6
  let random := s.cp0.random.extractLsb' 0 6
  { s with
    cp0 := { s.cp0 with
      count  := s.cp0.count + BitVec.ofNat 32 inc
      random := (nextRandomIndex s.rng wired random).setWidth 32 }
    timerIp := s.timerIp || timerFires s.cp0.count s.cp0.compare inc
    rng := (Config.nextRandom s.rng wired random).2
    draws := s.draws + 1 }

/-- The advise phase after an instruction phase (R514). -/
def adviseOut (o : Out) : Out :=
  match o with
  | .next s => .next s.advise
  | .fault f => .fault f
  | .refused r => .refused r

end Sys2Proof.Machine
end

