-- ==== Sys2Proof/Machine/Branch.lean ====
section
/-! DEFINITION. Jumps and branches (`spec/42_branch_jump.md` R270 to R291). -/

namespace Sys2Proof.Machine

/-! ### Conditions, on all 64 bits (R270(g)) -/

/-- `signed(v) < 0`. -/
def isNegative (v : Word) : Bool := v.slt 0
/-- `signed(v) <= 0`. -/
def isNotPositive (v : Word) : Bool := v.sle 0

/-! ### Jumps -/

/-- J (R271). -/
def execJ (target : BitVec 26) (s : State) : Out :=
  completeBranch id (jumpTarget s.pc target) s

/-- JAL (R272). -/
def execJal (target : BitVec 26) (s : State) : Out :=
  completeBranch (State.link 31 s.pc) (jumpTarget s.pc target) s

/-- JR (R273). -/
def execJr (rs : Reg) (s : State) : Out :=
  completeBranch id (s.readGpr rs) s

/-- JALR (R274): the target is read before the link is written. -/
def execJalr (rd rs : Reg) (s : State) : Out :=
  completeBranch (State.link rd s.pc) (s.readGpr rs) s

/-! ### Conditional branches -/

/-- BEQ (R275). -/
def execBeq (rs rt : Reg) (imm : BitVec 16) (s : State) : Out :=
  condBranch (s.readGpr rs == s.readGpr rt) id imm s

/-- BNE (R276). -/
def execBne (rs rt : Reg) (imm : BitVec 16) (s : State) : Out :=
  condBranch (s.readGpr rs != s.readGpr rt) id imm s

/-- BLEZ (R277). -/
def execBlez (rs : Reg) (imm : BitVec 16) (s : State) : Out :=
  condBranch (isNotPositive (s.readGpr rs)) id imm s

/-- BGTZ (R278). -/
def execBgtz (rs : Reg) (imm : BitVec 16) (s : State) : Out :=
  condBranch (!isNotPositive (s.readGpr rs)) id imm s

/-- BEQL (R279). -/
def execBeql (rs rt : Reg) (imm : BitVec 16) (s : State) : Out :=
  condBranchLikely (s.readGpr rs == s.readGpr rt) id imm s

/-- BNEL (R280). -/
def execBnel (rs rt : Reg) (imm : BitVec 16) (s : State) : Out :=
  condBranchLikely (s.readGpr rs != s.readGpr rt) id imm s

/-- BLEZL (R281). -/
def execBlezl (rs : Reg) (imm : BitVec 16) (s : State) : Out :=
  condBranchLikely (isNotPositive (s.readGpr rs)) id imm s

/-- BGTZL (R282). -/
def execBgtzl (rs : Reg) (imm : BitVec 16) (s : State) : Out :=
  condBranchLikely (!isNotPositive (s.readGpr rs)) id imm s

/-- BLTZ (R283). -/
def execBltz (rs : Reg) (imm : BitVec 16) (s : State) : Out :=
  condBranch (isNegative (s.readGpr rs)) id imm s

/-- BGEZ (R284). -/
def execBgez (rs : Reg) (imm : BitVec 16) (s : State) : Out :=
  condBranch (!isNegative (s.readGpr rs)) id imm s

/-- BLTZL (R285). -/
def execBltzl (rs : Reg) (imm : BitVec 16) (s : State) : Out :=
  condBranchLikely (isNegative (s.readGpr rs)) id imm s

/-- BGEZL (R286). -/
def execBgezl (rs : Reg) (imm : BitVec 16) (s : State) : Out :=
  condBranchLikely (!isNegative (s.readGpr rs)) id imm s

/-- BLTZAL (R287): the link is written whether or not the branch is taken. -/
def execBltzal (rs : Reg) (imm : BitVec 16) (s : State) : Out :=
  condBranch (isNegative (s.readGpr rs)) (State.link 31 s.pc) imm s

/-- BGEZAL (R288). -/
def execBgezal (rs : Reg) (imm : BitVec 16) (s : State) : Out :=
  condBranch (!isNegative (s.readGpr rs)) (State.link 31 s.pc) imm s

/-- BLTZALL (R289): the link is written even when the slot is nullified. -/
def execBltzall (rs : Reg) (imm : BitVec 16) (s : State) : Out :=
  condBranchLikely (isNegative (s.readGpr rs)) (State.link 31 s.pc) imm s

/-- BGEZALL (R290). -/
def execBgezall (rs : Reg) (imm : BitVec 16) (s : State) : Out :=
  condBranchLikely (!isNegative (s.readGpr rs)) (State.link 31 s.pc) imm s

end Sys2Proof.Machine
end

