-- ==== Sys2Proof/Machine/Cop0.lean ====
section
/-! DEFINITION. Coprocessor 0 (`spec/45_cop0.md` R370 to R380): moves, the TLB instructions, ERET. -/

namespace Sys2Proof.Machine

/-- MFC0 (R371). -/
def execMfc0 (rt rd : Reg) (s : State) : Out :=
  withCop0 s (writeBack rt (s.readCp0Narrow rd) s)

/-- DMFC0 (R372). -/
def execDmfc0 (rt rd : Reg) (s : State) : Out :=
  withCop0 s (withOps64 s (writeBack rt (s.readCp0Wide rd) s))

/-- MTC0 (R373). -/
def execMtc0 (rt rd : Reg) (s : State) : Out :=
  withCop0 s (complete (·.writeCp0 rd (sext32 (lowWord (s.readGpr rt)))) s)

/-- DMTC0 (R374). -/
def execDmtc0 (rt rd : Reg) (s : State) : Out :=
  withCop0 s (withOps64 s (complete (·.writeCp0 rd (s.readGpr rt)) s))

/-- TLBR (R375). -/
def execTlbr (s : State) : Out :=
  withCop0 s
    (complete (fun c => { c with cp0 := c.cp0.readTlb (s.tlbEntry s.indexSlot) }) s)

/-- TLBWI (R376). -/
def execTlbwi (s : State) : Out :=
  withCop0 s (complete (State.writeTlb s.indexSlot) s)

/-- TLBWR (R377). -/
def execTlbwr (s : State) : Out :=
  withCop0 s (complete (State.writeTlb s.randomSlot) s)

/-- TLBP (R378): the probe matches as an access to the address EntryHi holds. -/
def execTlbp (s : State) : Out :=
  withCop0 s
    (match s.tlbHits s.cp0.entryHi with
      | [] => complete (State.setProbe none) s
      | [e] => complete (State.setProbe (some e.2)) s
      | _ => .fault .tlbMultipleMatch)

/-- ERET (R379): the pending load commits, then the return; no delay slot. -/
def execEret (s : State) : Out :=
  withCop0 s (.next s.commitLoad.exceptionReturn)

end Sys2Proof.Machine
end

