-- ==== Sys2Proof/Machine/Flags.lean ====
section
/-! DEFINITION. Every flag computation: the signed-overflow conditions of the trapping adds and
subtracts (`spec/40_integer_alu.md` R201, R209, R211, R213, R221, R223) and the fields of FCR31
(`spec/10_state.md` R45, R46). There are no integer flags (R30). -/

namespace Sys2Proof.Machine

/-! ### Signed overflow -/

/-- An exact result does not fit `bits + 1` signed bits. -/
def outsideSigned (bits : Nat) (r : Int) : Bool := decide (r < -2 ^ bits ∨ 2 ^ bits - 1 < r)

/-- The exact sum of two words does not fit 32 signed bits (R201, R211). -/
def addOverflows32 (a b : BitVec 32) : Bool := outsideSigned 31 (a.toInt + b.toInt)

/-- The exact difference of two words does not fit 32 signed bits (R213). -/
def subOverflows32 (a b : BitVec 32) : Bool := outsideSigned 31 (a.toInt - b.toInt)

/-- The exact sum of two doublewords does not fit 64 signed bits (R209, R221). -/
def addOverflows64 (a b : Word) : Bool := outsideSigned 63 (a.toInt + b.toInt)

/-- The exact difference of two doublewords does not fit 64 signed bits (R223). -/
def subOverflows64 (a b : Word) : Bool := outsideSigned 63 (a.toInt - b.toInt)

/-! ### FCR31 (R45) -/

/-- The five IEEE exceptions V, Z, O, U, I, from bit 4 down to bit 0, as the Cause, Enable and Flag
fields order them. -/
abbrev FpExceptions := BitVec 5

/-- Invalid operation. -/
def fpV : FpExceptions := 0x10
/-- Division by zero. -/
def fpZ : FpExceptions := 0x08
/-- Overflow. -/
def fpO : FpExceptions := 0x04
/-- Underflow. -/
def fpU : FpExceptions := 0x02
/-- Inexact. -/
def fpI : FpExceptions := 0x01

/-- The writable mask of FCR31. -/
def fcr31Mask : BitVec 32 := 0x0183FFFF

/-- Bit 24, FS. -/
def fcr31Flush (f : BitVec 32) : Bool := f.getLsbD 24
/-- Bit 23, C. -/
def fcr31Cond (f : BitVec 32) : Bool := f.getLsbD 23
/-- Bit 17, Cause E. -/
def fcr31CauseE (f : BitVec 32) : Bool := f.getLsbD 17
/-- Bits 16:12, Cause V Z O U I. -/
def fcr31Cause (f : BitVec 32) : FpExceptions := f.extractLsb' 12 5
/-- Bits 11:7, Enable V Z O U I. -/
def fcr31Enable (f : BitVec 32) : FpExceptions := f.extractLsb' 7 5
/-- Bits 6:2, Flag V Z O U I. -/
def fcr31Flags (f : BitVec 32) : FpExceptions := f.extractLsb' 2 5
/-- Bits 1:0, RM. -/
def fcr31Rm (f : BitVec 32) : BitVec 2 := f.extractLsb' 0 2

/-- Clear Cause E V Z O U I (R432, step 2). -/
def fcr31ClearCause (f : BitVec 32) : BitVec 32 := f &&& 0xFFFC0FFF
/-- Set Cause E (R432, step 3). -/
def fcr31SetCauseE (f : BitVec 32) : BitVec 32 := f ||| 0x00020000
/-- Set the Cause bits of `x` (R432, step 5). -/
def fcr31SetCause (f : BitVec 32) (x : FpExceptions) : BitVec 32 := f ||| (x.setWidth 32 <<< 12)
/-- Set the sticky flags of `x` (R432, step 7). -/
def fcr31SetFlags (f : BitVec 32) (x : FpExceptions) : BitVec 32 := f ||| (x.setWidth 32 <<< 2)
/-- Write C (R460). -/
def fcr31SetCond (f : BitVec 32) (c : Bool) : BitVec 32 :=
  (f &&& 0xFF7FFFFF) ||| (if c then 0x00800000 else 0)

/-- The condition under which a CTC1 write raises FloatingPoint (R46, R410). -/
def fcr31Traps (f : BitVec 32) : Bool :=
  fcr31CauseE f || decide (fcr31Cause f &&& fcr31Enable f ≠ 0)

end Sys2Proof.Machine
end

