-- ==== Sys2Proof/Machine/Cop1Move.lean ====
section
/-! DEFINITION. Coprocessor 1 loads, stores, moves and branches (`spec/46_cop1_move_branch.md` R400 to
R415). -/

namespace Sys2Proof.Machine

/-- FCR0 (R44). -/
def fcr0Value : BitVec 32 := 0#16 ++ Config.fcr0Low

/-- What CFC1 reads (R43, R409). -/
def State.readFcr (s : State) (n : Reg) : BitVec 32 :=
  match n with
  | 0#5 => fcr0Value
  | 31#5 => s.fcr31
  | _ => Config.fcrOther s.draws n

/-- FCR31. -/
def State.setFcr31 (v : BitVec 32) (s : State) : State := { s with fcr31 := v }

/-- LWC1 (R401). -/
def execLwc1 (ft base : Reg) (imm : BitVec 16) (s : State) : Out :=
  withCop1 s (loadVirt 4 (s.effectiveAddress base imm) s fun v =>
    complete (·.writeF32Move ft (lowWord v)) s)

/-- LDC1 (R402). -/
def execLdc1 (ft base : Reg) (imm : BitVec 16) (s : State) : Out :=
  withCop1 s (loadVirt 8 (s.effectiveAddress base imm) s fun v => complete (·.writeF64 ft v) s)

/-- SWC1 (R403). -/
def execSwc1 (ft base : Reg) (imm : BitVec 16) (s : State) : Out :=
  withCop1 s (storeVirt 4 (s.effectiveAddress base imm) ((s.readF32 ft).setWidth 64) s)

/-- SDC1 (R404). -/
def execSdc1 (ft base : Reg) (imm : BitVec 16) (s : State) : Out :=
  withCop1 s (storeVirt 8 (s.effectiveAddress base imm) (s.readF64 ft) s)

/-- MFC1 (R405). -/
def execMfc1 (rt fs : Reg) (s : State) : Out :=
  withCop1 s (writeBack rt (sext32 (s.readF32 fs)) s)

/-- DMFC1 (R406). -/
def execDmfc1 (rt fs : Reg) (s : State) : Out :=
  withCop1 s (withOps64 s (writeBack rt (s.readF64 fs) s))

/-- MTC1 (R407). -/
def execMtc1 (rt fs : Reg) (s : State) : Out :=
  withCop1 s (complete (·.writeF32Move fs (lowWord (s.readGpr rt))) s)

/-- DMTC1 (R408). -/
def execDmtc1 (rt fs : Reg) (s : State) : Out :=
  withCop1 s (withOps64 s (complete (·.writeF64 fs (s.readGpr rt)) s))

/-- CFC1 (R409). -/
def execCfc1 (rt fs : Reg) (s : State) : Out :=
  withCop1 s (writeBack rt (sext32 (s.readFcr fs)) s)

/-- CTC1 (R410): FCR31 keeps the value written when FloatingPoint is raised. -/
def execCtc1 (rt fs : Reg) (s : State) : Out :=
  let v := lowWord (s.readGpr rt) &&& fcr31Mask
  withCop1 s
    (if fs = 31 then
      if fcr31Traps v then raise .floatingPoint (s.setFcr31 v) else complete (·.setFcr31 v) s
    else complete id s)

/-- BC1F (R411). -/
def execBc1f (imm : BitVec 16) (s : State) : Out :=
  withCop1 s (condBranch (!fcr31Cond s.fcr31) id imm s)

/-- BC1T (R412). -/
def execBc1t (imm : BitVec 16) (s : State) : Out :=
  withCop1 s (condBranch (fcr31Cond s.fcr31) id imm s)

/-- BC1FL (R413). -/
def execBc1fl (imm : BitVec 16) (s : State) : Out :=
  withCop1 s (condBranchLikely (!fcr31Cond s.fcr31) id imm s)

/-- BC1TL (R414). -/
def execBc1tl (imm : BitVec 16) (s : State) : Out :=
  withCop1 s (condBranchLikely (fcr31Cond s.fcr31) id imm s)

end Sys2Proof.Machine
end

