-- ==== Sys2Proof/Machine/Fp.lean ====
section
/-! DEFINITION. Floating-point numbers and arithmetic: the defaults of `FpResult` and
`FpUnimplemented` (`spec/47_cop1_arith.md` R430 to R436, R440 to R460, log 8). A value of either
format is a pattern in the low bits of a `Word`. Results are computed exactly, as an integer times
a power of two, and rounded once. -/

namespace Sys2Proof.Machine

/-! ### Formats and classes (R430, R431) -/

/-- The two floating-point formats. -/
inductive FpFormat where
  /-- S, binary32. -/
  | single
  /-- D, binary64. -/
  | double
  deriving DecidableEq, Repr

/-- The number `p` of fraction bits. -/
def FpFormat.fracBits : FpFormat → Nat
  | .single => 23
  | .double => 52

/-- The number of exponent bits. -/
def FpFormat.expBits : FpFormat → Nat
  | .single => 8
  | .double => 11

/-- The exponent bias. -/
def FpFormat.bias : FpFormat → Nat
  | .single => 127
  | .double => 1023

/-- The exponent field of infinities and NaNs. -/
def FpFormat.emax : FpFormat → Nat
  | .single => 255
  | .double => 2047

/-- The `fmt` field (R430). -/
def FpFormat.code : FpFormat → BitVec 5
  | .single => 0x10
  | .double => 0x11

/-- Whether a value fills 64 bits of a register. -/
def FpFormat.wide : FpFormat → Bool
  | .single => false
  | .double => true

/-- The sign bit. -/
def fpSign (f : FpFormat) (v : Word) : Bool := v.getLsbD (f.fracBits + f.expBits)

/-- The exponent field. -/
def fpExp (f : FpFormat) (v : Word) : Nat := v.toNat / 2 ^ f.fracBits % 2 ^ f.expBits

/-- The fraction field. -/
def fpFrac (f : FpFormat) (v : Word) : Nat := v.toNat % 2 ^ f.fracBits

/-- The pattern with given fields. -/
def fpPack (f : FpFormat) (neg : Bool) (exp frac : Nat) : Word :=
  BitVec.ofNat 64
    ((if neg then 2 ^ (f.fracBits + f.expBits) else 0) + exp * 2 ^ f.fracBits + frac)

/-- The classes of R431. -/
inductive FpClass where
  | zero | denormal | normal | infinity | quietNan | signallingNan
  deriving DecidableEq, Repr

/-- The class of a pattern; the top fraction bit is 1 for a signalling NaN (R431). -/
def fpClass (f : FpFormat) (v : Word) : FpClass :=
  if fpExp f v = 0 then (if fpFrac f v = 0 then .zero else .denormal)
  else if fpExp f v = f.emax then
    (if fpFrac f v = 0 then .infinity
      else if fpFrac f v < 2 ^ (f.fracBits - 1) then .quietNan else .signallingNan)
  else .normal

/-- A zero or a normal: an operand of the exact subset (R436). -/
def fpOrdinary (f : FpFormat) (v : Word) : Bool := fpClass f v = .zero || fpClass f v = .normal

/-- A NaN of either kind. -/
def fpIsNan (f : FpFormat) (v : Word) : Bool :=
  fpClass f v = .quietNan || fpClass f v = .signallingNan

/-- Signed zero. -/
def fpZeroOf (f : FpFormat) (neg : Bool) : Word := fpPack f neg 0 0
/-- Signed infinity. -/
def fpInfinity (f : FpFormat) (neg : Bool) : Word := fpPack f neg f.emax 0
/-- The largest finite number. -/
def fpLargest (f : FpFormat) (neg : Bool) : Word := fpPack f neg (f.emax - 1) (2 ^ f.fracBits - 1)
/-- The smallest normal number (R433). -/
def fpSmallestNormal (f : FpFormat) (neg : Bool) : Word := fpPack f neg 1 0
/-- The default quiet NaN (R431). -/
def fpDefaultNan (f : FpFormat) : Word := fpPack f false f.emax (2 ^ (f.fracBits - 1) - 1)

/-- The quiet NaN with the sign `neg` and, as far as it makes a NaN, the payload of `bits`. -/
def fpQuietNan (f : FpFormat) (neg : Bool) (bits : Word) : Word :=
  let payload := bits.toNat % 2 ^ (f.fracBits - 1)
  fpPack f neg f.emax (if payload = 0 then 2 ^ (f.fracBits - 1) - 1 else payload)

/-- The significand of a zero, denormal or normal as an integer (R431). -/
def fpMant (f : FpFormat) (v : Word) : Nat :=
  if fpExp f v = 0 then fpFrac f v else 2 ^ f.fracBits + fpFrac f v

/-- The power of two the significand is scaled by (R431). -/
def fpScale (f : FpFormat) (v : Word) : Int :=
  (if fpExp f v = 0 then 1 else (fpExp f v : Int)) - f.bias - f.fracBits

/-! ### Rounding (R433, R435) -/

/-- The rounding modes (R45). -/
inductive RoundMode where
  | nearest | towardZero | up | down
  deriving DecidableEq, Repr

/-- `FCR31.RM`. -/
def roundModeOf (rm : BitVec 2) : RoundMode :=
  match rm with
  | 0#2 => .nearest
  | 1#2 => .towardZero
  | 2#2 => .up
  | _ => .down

/-- What an operation reads of FCR31, and the counter its free values are taken from. -/
structure FpEnv where
  rm     : RoundMode
  flush  : Bool
  enable : FpExceptions
  draw   : Nat
  deriving DecidableEq, Repr

/-- What an operation answers: handed to software, or a result and its exceptions (R432). -/
inductive FpResult where
  | unimplemented
  | value (v : Word) (x : FpExceptions)
  deriving DecidableEq, Repr

/-- A result without an exception, as all results of the exact subset are (R436). -/
def FpResult.isExact (r : FpResult) : Bool :=
  match r with
  | .unimplemented => false
  | .value _ x => x = 0

/-- What a unit other than the default one answers: its `FpUnimplemented`, then its `FpResult`, on
FCR31 with the Cause field cleared (R432, steps 3 and 4, log 8). -/
def fpFree (fmt : BitVec 5) (funct : BitVec 6) (a b : Word) (fcr31 : BitVec 32) : FpResult :=
  if Config.fpUnimplemented fmt funct a b fcr31 then .unimplemented
  else
    let r := Config.fpResult fmt funct a b (fcr31Rm fcr31) (fcr31Flush fcr31)
    .value r.1 r.2

/-- Round the magnitude `(m + t) / 2^sh` to an integer, where `t` is zero, or strictly between 0
and 1 when `sticky`: the integer, and whether it is inexact. -/
def roundQuotient (rm : RoundMode) (neg : Bool) (m sh : Nat) (sticky : Bool) : Nat × Bool :=
  let q := m / 2 ^ sh
  let r := m % 2 ^ sh
  let inexact := decide (r ≠ 0) || sticky
  let up := match rm with
    | .nearest => decide (2 ^ sh < 2 * r) || (decide (2 * r = 2 ^ sh) && (sticky || decide (q % 2 = 1)))
    | .towardZero => false
    | .up => inexact && !neg
    | .down => inexact && neg
  (if up then q + 1 else q, inexact)

/-- A significand of `p + 1` bits, the power of two that scales it, and whether rounding to it was
inexact. -/
structure Rounded where
  mant    : Nat
  scale   : Int
  inexact : Bool
  deriving DecidableEq, Repr

/-- Round the magnitude `(m + t) * 2^e`, `m > 0`, to `p + 1` bits with an unbounded exponent. With
`sticky`, `m` has at least `p + 3` bits. -/
def roundUnbounded (f : FpFormat) (rm : RoundMode) (neg : Bool) (m : Nat) (e : Int) (sticky : Bool) :
    Rounded :=
  let scale := f.fracBits + 2 - m.log2
  let sh := m.log2 + scale - f.fracBits
  let r := roundQuotient rm neg (m * 2 ^ scale) sh sticky
  let e' := e - scale + sh
  if r.1 = 2 ^ (f.fracBits + 1) then ⟨2 ^ f.fracBits, e' + 1, r.2⟩ else ⟨r.1, e', r.2⟩

/-- The result of an overflow (R435). -/
def fpOverflow (f : FpFormat) (rm : RoundMode) (neg : Bool) : Word :=
  match rm with
  | .nearest => fpInfinity f neg
  | .towardZero => fpLargest f neg
  | .up => if neg then fpLargest f true else fpInfinity f false
  | .down => if neg then fpInfinity f true else fpLargest f false

/-- The result of a flushed tiny value (R433). -/
def fpFlushed (f : FpFormat) (rm : RoundMode) (neg : Bool) : Word :=
  match rm with
  | .nearest | .towardZero => fpZeroOf f neg
  | .up => if neg then fpZeroOf f true else fpSmallestNormal f false
  | .down => if neg then fpSmallestNormal f true else fpZeroOf f false

/-- A tiny result: unimplemented, or flushed with U and I (R433, R434(b)). -/
def fpTiny (f : FpFormat) (env : FpEnv) (neg : Bool) : FpResult :=
  if !env.flush || decide (env.enable &&& (fpU ||| fpI) ≠ 0) then .unimplemented
  else .value (fpFlushed f env.rm neg) (fpU ||| fpI)

/-- The result for the exact non-zero value of sign `neg` and magnitude `(m + t) * 2^e`: tiny
(R433), overflow, or rounded (R435). Tiny before rounding only is a free choice (log 11). -/
def fpRound (f : FpFormat) (env : FpEnv) (neg : Bool) (m : Nat) (e : Int) (sticky : Bool) : FpResult :=
  let r := roundUnbounded f env.rm neg m e sticky
  let lead := r.scale + f.fracBits
  let emin : Int := 1 - f.bias
  if decide (lead < emin) || (decide (m.log2 + e < emin) && Config.tinyBeforeRounding env.draw) then
    fpTiny f env neg
  else if (f.bias : Int) < lead then .value (fpOverflow f env.rm neg) (fpO ||| fpI)
  else .value (fpPack f neg (lead + f.bias).toNat (r.mant - 2 ^ f.fracBits))
    (if r.inexact then fpI else 0)

/-! ### Operands that are not numbers (R434(a), R435) -/

/-- Invalid operation: the default quiet NaN. -/
def fpInvalid (f : FpFormat) : FpResult := .value (fpDefaultNan f) fpV

/-- A result in format `f` with a NaN among the operands; the payload and sign of a quiet NaN are
free (log 9). -/
def fpNan (f : FpFormat) (env : FpEnv) (signalling : Bool) (a b : Word) : FpResult :=
  if signalling then fpInvalid f
  else
    let bits := Config.nanPayload env.draw a b
    .value (fpQuietNan f (bits.getLsbD 63) bits) 0

/-- The cases of two operands before any arithmetic: denormal operands, then NaNs. -/
def fpCheck2 (f : FpFormat) (env : FpEnv) (a b : Word) (k : FpResult) : FpResult :=
  if fpClass f a = .denormal ∨ fpClass f b = .denormal then .unimplemented
  else if fpIsNan f a || fpIsNan f b then
    fpNan f env (fpClass f a = .signallingNan || fpClass f b = .signallingNan) a b
  else k

/-- The cases of one operand of format `src` before any arithmetic. -/
def fpCheck1 (src f : FpFormat) (env : FpEnv) (a : Word) (k : FpResult) : FpResult :=
  if fpClass src a = .denormal then .unimplemented
  else if fpIsNan src a then fpNan f env (fpClass src a = .signallingNan) a a
  else k

/-! ### Arithmetic (R440 to R447) -/

/-- The value with the sign bit given. -/
def fpWithSign (f : FpFormat) (v : Word) (neg : Bool) : Word := fpPack f neg (fpExp f v) (fpFrac f v)

/-- The signed significand of `a` at the scale `e`, which is at most its own. -/
def fpSignedMant (f : FpFormat) (a : Word) (e : Int) : Int :=
  let m : Int := (fpMant f a * 2 ^ (fpScale f a - e).toNat : Nat)
  if fpSign f a then -m else m

/-- The sum of two numbers; a zero sum takes the common sign, else the sign of the mode (R435). -/
def fpAddNumbers (f : FpFormat) (env : FpEnv) (a b : Word) : FpResult :=
  let e := min (fpScale f a) (fpScale f b)
  let sum := fpSignedMant f a e + fpSignedMant f b e
  if sum = 0 then
    .value (fpZeroOf f
      (if fpSign f a = fpSign f b then fpSign f a else decide (env.rm = .down))) 0
  else fpRound f env (decide (sum < 0)) sum.natAbs e false

/-- `round(a + b)` (R440). -/
def fpAdd (f : FpFormat) (env : FpEnv) (a b : Word) : FpResult :=
  fpCheck2 f env a b
    (if fpClass f a = .infinity then
      (if fpClass f b = .infinity ∧ fpSign f a ≠ fpSign f b then fpInvalid f
        else .value (fpInfinity f (fpSign f a)) 0)
    else if fpClass f b = .infinity then .value (fpInfinity f (fpSign f b)) 0
    else fpAddNumbers f env a b)

/-- `round(a - b)` (R441). -/
def fpSub (f : FpFormat) (env : FpEnv) (a b : Word) : FpResult :=
  fpAdd f env a (fpWithSign f b (!fpSign f b))

/-- `round(a * b)` (R442). -/
def fpMul (f : FpFormat) (env : FpEnv) (a b : Word) : FpResult :=
  let neg := fpSign f a ^^ fpSign f b
  fpCheck2 f env a b
    (if fpClass f a = .infinity ∨ fpClass f b = .infinity then
      (if fpClass f a = .zero ∨ fpClass f b = .zero then fpInvalid f
        else .value (fpInfinity f neg) 0)
    else if fpClass f a = .zero ∨ fpClass f b = .zero then .value (fpZeroOf f neg) 0
    else fpRound f env neg (fpMant f a * fpMant f b) (fpScale f a + fpScale f b) false)

/-- `round(a / b)` (R443). The quotient is taken with `2p + 8` extra bits. -/
def fpDiv (f : FpFormat) (env : FpEnv) (a b : Word) : FpResult :=
  let neg := fpSign f a ^^ fpSign f b
  let k := 2 * f.fracBits + 8
  let n := fpMant f a * 2 ^ k
  fpCheck2 f env a b
    (if fpClass f a = .infinity then
      (if fpClass f b = .infinity then fpInvalid f else .value (fpInfinity f neg) 0)
    else if fpClass f b = .infinity then .value (fpZeroOf f neg) 0
    else if fpClass f b = .zero then
      (if fpClass f a = .zero then fpInvalid f else .value (fpInfinity f neg) fpZ)
    else if fpClass f a = .zero then .value (fpZeroOf f neg) 0
    else fpRound f env neg (n / fpMant f b) (fpScale f a - fpScale f b - k)
      (decide (n % fpMant f b ≠ 0)))

/-- The largest `r` of at most `k` further bits above `acc` with `r * r ≤ n`. -/
def isqrtFrom (n : Nat) : Nat → Nat → Nat
  | 0, acc => acc
  | k + 1, acc => isqrtFrom n k (if (acc + 2 ^ k) * (acc + 2 ^ k) ≤ n then acc + 2 ^ k else acc)

/-- The integer square root. -/
def isqrt (n : Nat) : Nat := isqrtFrom n (n.log2 / 2 + 1) 0

/-- The square root of the positive number `m * 2^e`: `e` is made even, and `2(p + 4)` bits are
added below. -/
def fpSqrtNumber (f : FpFormat) (env : FpEnv) (m : Nat) (e : Int) : FpResult :=
  let odd := e % 2 ≠ 0
  let n := (if odd then 2 * m else m) * 2 ^ (2 * (f.fracBits + 4))
  let e' := (if odd then e - 1 else e) / 2 - (f.fracBits + 4)
  fpRound f env false (isqrt n) e' (decide (isqrt n * isqrt n ≠ n))

/-- `round(sqrt(a))` (R444). -/
def fpSqrt (f : FpFormat) (env : FpEnv) (a : Word) : FpResult :=
  fpCheck1 f f env a
    (if fpClass f a = .zero then .value (fpZeroOf f (fpSign f a)) 0
    else if fpSign f a then fpInvalid f
    else if fpClass f a = .infinity then .value (fpInfinity f false) 0
    else fpSqrtNumber f env (fpMant f a) (fpScale f a))

/-- The value with the sign given, for ABS and NEG: the payload of a quiet NaN is free (R435, R445,
R447, log 9). -/
def fpSetSign (f : FpFormat) (env : FpEnv) (neg : Bool) (a : Word) : FpResult :=
  if fpClass f a = .denormal then .unimplemented
  else if fpClass f a = .signallingNan then fpInvalid f
  else if fpClass f a = .quietNan then .value (fpQuietNan f neg (Config.nanPayload env.draw a a)) 0
  else .value (fpWithSign f a neg) 0

/-- ABS (R445). -/
def fpAbs (f : FpFormat) (env : FpEnv) (a : Word) : FpResult := fpSetSign f env false a

/-- NEG (R447). -/
def fpNeg (f : FpFormat) (env : FpEnv) (a : Word) : FpResult := fpSetSign f env (!fpSign f a) a

/-! ### Conversions (R448 to R459) -/

/-- A number rounded to an integer, and whether it is inexact. -/
def fpToInt (f : FpFormat) (rm : RoundMode) (a : Word) : Int × Bool :=
  let q := if 0 ≤ fpScale f a then (fpMant f a * 2 ^ (fpScale f a).toNat, false)
    else roundQuotient rm (fpSign f a) (fpMant f a) (-fpScale f a).toNat false
  (if fpSign f a then -(q.1 : Int) else q.1, q.2)

/-- A conversion to fixed point under `rm`; out of `lo .. hi`, or from no number, it is
unimplemented (R434(a), (c), (d)). -/
def fpToFixed (f : FpFormat) (rm : RoundMode) (lo hi : Int) (a : Word) : FpResult :=
  match fpClass f a with
  | .zero => .value 0 0
  | .normal =>
    let r := fpToInt f rm a
    if r.1 < lo ∨ hi < r.1 then .unimplemented
    else .value (BitVec.ofInt 64 r.1) (if r.2 then fpI else 0)
  | .denormal | .infinity | .quietNan | .signallingNan => .unimplemented

/-- To W (R434(c)). -/
def fpToWord (f : FpFormat) (rm : RoundMode) (a : Word) : FpResult :=
  fpToFixed f rm (-2 ^ 31) (2 ^ 31 - 1) a

/-- To L (R434(d)). -/
def fpToLong (f : FpFormat) (rm : RoundMode) (a : Word) : FpResult :=
  fpToFixed f rm (-2 ^ 53) (2 ^ 53) a

/-- An integer rounded to a format. -/
def fpOfInt (f : FpFormat) (env : FpEnv) (i : Int) : FpResult :=
  if i = 0 then .value (fpZeroOf f false) 0 else fpRound f env (decide (i < 0)) i.natAbs 0 false

/-- From W (R456, R457). -/
def fpOfWord (f : FpFormat) (env : FpEnv) (a : Word) : FpResult :=
  fpOfInt f env (a.extractLsb' 0 32).toInt

/-- From L, unimplemented outside `-2^55 .. 2^55 - 1` (R434(e)). -/
def fpOfLong (f : FpFormat) (env : FpEnv) (a : Word) : FpResult :=
  if outsideSigned 55 a.toInt then .unimplemented else fpOfInt f env a.toInt

/-- From one floating-point format to the other (R456, R457). -/
def fpConvert (src f : FpFormat) (env : FpEnv) (a : Word) : FpResult :=
  fpCheck1 src f env a
    (if fpClass src a = .zero then .value (fpZeroOf f (fpSign src a)) 0
    else if fpClass src a = .infinity then .value (fpInfinity f (fpSign src a)) 0
    else fpRound f env (fpSign src a) (fpMant src a) (fpScale src a) false)

/-! ### Compare (R460) -/

/-- An integer that orders the patterns that are not NaNs as their values: exponent and fraction,
with the sign. -/
def fpOrderKey (f : FpFormat) (v : Word) : Int :=
  let m : Int := (fpExp f v * 2 ^ f.fracBits + fpFrac f v : Nat)
  if fpSign f v then -m else m

/-- `unordered`. -/
def fpUnordered (f : FpFormat) (a b : Word) : Bool := fpIsNan f a || fpIsNan f b

/-- `less`. -/
def fpLess (f : FpFormat) (a b : Word) : Bool :=
  !fpUnordered f a b && decide (fpOrderKey f a < fpOrderKey f b)

/-- `equal`. -/
def fpEqual (f : FpFormat) (a b : Word) : Bool :=
  !fpUnordered f a b && decide (fpOrderKey f a = fpOrderKey f b)

/-- Whether the compare is invalid: unordered, and either `cond[3]` or a signalling NaN. -/
def fpCompareInvalid (f : FpFormat) (cond : BitVec 4) (a b : Word) : Bool :=
  fpUnordered f a b &&
    (cond.getLsbD 3 || fpClass f a = .signallingNan || fpClass f b = .signallingNan)

/-- The new condition bit. -/
def fpCompare (f : FpFormat) (cond : BitVec 4) (a b : Word) : Bool :=
  (cond.getLsbD 2 && fpLess f a b) || (cond.getLsbD 1 && fpEqual f a b) ||
    (cond.getLsbD 0 && fpUnordered f a b)

end Sys2Proof.Machine
end

