-- ==== Sys2Proof/Machine/Cop1Arith.lean ====
section
/-! DEFINITION. Coprocessor 1 arithmetic, conversion and compare (`spec/47_cop1_arith.md` R430 to
R460): the common wrapper of R432 around the operations of `Machine/Fp.lean`. -/

namespace Sys2Proof.Machine

/-! ### Operands and results (R430) -/

/-- An S or D operand; an S operand is zero-extended. -/
def State.readFp (s : State) (f : FpFormat) (i : Reg) : Word :=
  if f.wide then s.readF64 i else (s.readF32 i).setWidth 64

/-- A result of 64 bits (D, L) or 32 bits (S, W, in the arithmetic-result form). -/
def State.writeFp (s : State) (wide : Bool) (i : Reg) (v : Word) : State :=
  if wide then s.writeF64 i v else s.writeF32Arith i (lowWord v)

/-- What an operation reads of the state beside its operands. -/
def State.fpEnv (s : State) : FpEnv where
  rm     := roundModeOf (fcr31Rm s.fcr31)
  flush  := fcr31Flush s.fcr31
  enable := fcr31Enable s.fcr31
  draw   := s.draws

/-! ### The wrapper -/

/-- Steps 2 to 7 of R432 for an operation that answered `r` and writes register `fd`. -/
def fpFinish (wide : Bool) (fd : Reg) (r : FpResult) (s : State) : Out :=
  let cleared := fcr31ClearCause s.fcr31
  match r with
  | .unimplemented => raise .floatingPoint (s.setFcr31 (fcr31SetCauseE cleared))
  | .value v x =>
    if x &&& fcr31Enable s.fcr31 ≠ 0 then
      raise .floatingPoint (s.setFcr31 (fcr31SetCause cleared x))
    else
      complete (fun c =>
        (c.setFcr31 (fcr31SetFlags (fcr31SetCause cleared x) x)).writeFp wide fd v) s

/-- Steps 3 and 4 of R432 for the instruction with these `fmt` and `funct`, where the default
parameters answer `r`: the unit of the machine decides, but for the exact subset, which depends on no
parameter (R436, log 8). -/
def State.fpAnswer (s : State) (fmt : BitVec 5) (funct : BitVec 6) (ordinary : Bool) (a b : Word)
    (r : FpResult) : FpResult :=
  match s.fpu with
  | .standard => r
  | .free => if ordinary && r.isExact then r else fpFree fmt funct a b (fcr31ClearCause s.fcr31)

/-- An operation on two operands of one format. -/
def fpBinary (f : FpFormat) (funct : BitVec 6) (op : FpFormat → FpEnv → Word → Word → FpResult)
    (fd fs ft : Reg) (s : State) : Out :=
  let a := s.readFp f fs
  let b := s.readFp f ft
  withCop1 s (fpFinish f.wide fd
    (s.fpAnswer f.code funct (fpOrdinary f a && fpOrdinary f b) a b (op f s.fpEnv a b)) s)

/-- An operation on one operand `a` of the format `fmt`, with a result of 64 or 32 bits. -/
def fpOne (fmt : BitVec 5) (funct : BitVec 6) (ordinary wide : Bool) (a : Word) (r : FpResult)
    (fd : Reg) (s : State) : Out :=
  withCop1 s (fpFinish wide fd (s.fpAnswer fmt funct ordinary a 0 r) s)

/-- An operation on one operand, with a result of the same format. -/
def fpUnary (f : FpFormat) (funct : BitVec 6) (op : FpFormat → FpEnv → Word → FpResult) (fd fs : Reg)
    (s : State) : Out :=
  let a := s.readFp f fs
  fpOne f.code funct (fpOrdinary f a) f.wide a (op f s.fpEnv a) fd s

/-- A conversion to W under a stated mode. -/
def fpToW (f : FpFormat) (funct : BitVec 6) (rm : RoundMode) (fd fs : Reg) (s : State) : Out :=
  let a := s.readFp f fs
  fpOne f.code funct (fpOrdinary f a) false a (fpToWord f rm a) fd s

/-- A conversion to L under a stated mode. -/
def fpToL (f : FpFormat) (funct : BitVec 6) (rm : RoundMode) (fd fs : Reg) (s : State) : Out :=
  let a := s.readFp f fs
  fpOne f.code funct (fpOrdinary f a) true a (fpToLong f rm a) fd s

/-- A conversion from W (`fmt` 20, R430). -/
def fpFromW (f : FpFormat) (funct : BitVec 6) (fd fs : Reg) (s : State) : Out :=
  let a := (s.readF32 fs).setWidth 64
  fpOne 0x14 funct true f.wide a (fpOfWord f s.fpEnv a) fd s

/-- A conversion from L (`fmt` 21, R430). -/
def fpFromL (f : FpFormat) (funct : BitVec 6) (fd fs : Reg) (s : State) : Out :=
  let a := s.readF64 fs
  fpOne 0x15 funct true f.wide a (fpOfLong f s.fpEnv a) fd s

/-- A conversion between S and D. -/
def fpCvt (src f : FpFormat) (funct : BitVec 6) (fd fs : Reg) (s : State) : Out :=
  let a := s.readFp src fs
  fpOne src.code funct (fpOrdinary src a) f.wide a (fpConvert src f s.fpEnv a) fd s

/-- MOV.fmt: steps 1, 2 and 7 of the wrapper (R432, R446). -/
def fpMove (f : FpFormat) (fd fs : Reg) (s : State) : Out :=
  withCop1 s (complete (fun c =>
    (c.setFcr31 (fcr31ClearCause s.fcr31)).writeFp f.wide fd (s.readFp f fs)) s)

/-- C.cond.fmt (R460). -/
def fpCmp (f : FpFormat) (cond : BitVec 4) (fs ft : Reg) (s : State) : Out :=
  let a := s.readFp f fs
  let b := s.readFp f ft
  let x := if fpCompareInvalid f cond a b then fpV else 0
  let caused := fcr31SetCause (fcr31ClearCause s.fcr31) x
  withCop1 s
    (if x &&& fcr31Enable s.fcr31 ≠ 0 then raise .floatingPoint (s.setFcr31 caused)
    else complete (·.setFcr31 (fcr31SetCond (fcr31SetFlags caused x) (fpCompare f cond a b))) s)

/-! ### The instructions -/

/-- ADD.S (R440). -/
def execAddS (fd fs ft : Reg) (s : State) : Out :=
  fpBinary .single 0x00 fpAdd fd fs ft s

/-- ADD.D (R440). -/
def execAddD (fd fs ft : Reg) (s : State) : Out :=
  fpBinary .double 0x00 fpAdd fd fs ft s

/-- SUB.S (R441). -/
def execSubS (fd fs ft : Reg) (s : State) : Out :=
  fpBinary .single 0x01 fpSub fd fs ft s

/-- SUB.D (R441). -/
def execSubD (fd fs ft : Reg) (s : State) : Out :=
  fpBinary .double 0x01 fpSub fd fs ft s

/-- MUL.S (R442). -/
def execMulS (fd fs ft : Reg) (s : State) : Out :=
  fpBinary .single 0x02 fpMul fd fs ft s

/-- MUL.D (R442). -/
def execMulD (fd fs ft : Reg) (s : State) : Out :=
  fpBinary .double 0x02 fpMul fd fs ft s

/-- DIV.S (R443). -/
def execDivS (fd fs ft : Reg) (s : State) : Out :=
  fpBinary .single 0x03 fpDiv fd fs ft s

/-- DIV.D (R443). -/
def execDivD (fd fs ft : Reg) (s : State) : Out :=
  fpBinary .double 0x03 fpDiv fd fs ft s

/-- SQRT.S (R444). -/
def execSqrtS (fd fs : Reg) (s : State) : Out :=
  fpUnary .single 0x04 fpSqrt fd fs s

/-- SQRT.D (R444). -/
def execSqrtD (fd fs : Reg) (s : State) : Out :=
  fpUnary .double 0x04 fpSqrt fd fs s

/-- ABS.S (R445). -/
def execAbsS (fd fs : Reg) (s : State) : Out :=
  fpUnary .single 0x05 fpAbs fd fs s

/-- ABS.D (R445). -/
def execAbsD (fd fs : Reg) (s : State) : Out :=
  fpUnary .double 0x05 fpAbs fd fs s

/-- MOV.S (R446). -/
def execMovS (fd fs : Reg) (s : State) : Out :=
  fpMove .single fd fs s

/-- MOV.D (R446). -/
def execMovD (fd fs : Reg) (s : State) : Out :=
  fpMove .double fd fs s

/-- NEG.S (R447). -/
def execNegS (fd fs : Reg) (s : State) : Out :=
  fpUnary .single 0x07 fpNeg fd fs s

/-- NEG.D (R447). -/
def execNegD (fd fs : Reg) (s : State) : Out :=
  fpUnary .double 0x07 fpNeg fd fs s

/-- ROUND.L.S (R448). -/
def execRoundLS (fd fs : Reg) (s : State) : Out :=
  fpToL .single 0x08 .nearest fd fs s

/-- ROUND.L.D (R448). -/
def execRoundLD (fd fs : Reg) (s : State) : Out :=
  fpToL .double 0x08 .nearest fd fs s

/-- TRUNC.L.S (R449). -/
def execTruncLS (fd fs : Reg) (s : State) : Out :=
  fpToL .single 0x09 .towardZero fd fs s

/-- TRUNC.L.D (R449). -/
def execTruncLD (fd fs : Reg) (s : State) : Out :=
  fpToL .double 0x09 .towardZero fd fs s

/-- CEIL.L.S (R450). -/
def execCeilLS (fd fs : Reg) (s : State) : Out :=
  fpToL .single 0x0A .up fd fs s

/-- CEIL.L.D (R450). -/
def execCeilLD (fd fs : Reg) (s : State) : Out :=
  fpToL .double 0x0A .up fd fs s

/-- FLOOR.L.S (R451). -/
def execFloorLS (fd fs : Reg) (s : State) : Out :=
  fpToL .single 0x0B .down fd fs s

/-- FLOOR.L.D (R451). -/
def execFloorLD (fd fs : Reg) (s : State) : Out :=
  fpToL .double 0x0B .down fd fs s

/-- ROUND.W.S (R452). -/
def execRoundWS (fd fs : Reg) (s : State) : Out :=
  fpToW .single 0x0C .nearest fd fs s

/-- ROUND.W.D (R452). -/
def execRoundWD (fd fs : Reg) (s : State) : Out :=
  fpToW .double 0x0C .nearest fd fs s

/-- TRUNC.W.S (R453). -/
def execTruncWS (fd fs : Reg) (s : State) : Out :=
  fpToW .single 0x0D .towardZero fd fs s

/-- TRUNC.W.D (R453). -/
def execTruncWD (fd fs : Reg) (s : State) : Out :=
  fpToW .double 0x0D .towardZero fd fs s

/-- CEIL.W.S (R454). -/
def execCeilWS (fd fs : Reg) (s : State) : Out :=
  fpToW .single 0x0E .up fd fs s

/-- CEIL.W.D (R454). -/
def execCeilWD (fd fs : Reg) (s : State) : Out :=
  fpToW .double 0x0E .up fd fs s

/-- FLOOR.W.S (R455). -/
def execFloorWS (fd fs : Reg) (s : State) : Out :=
  fpToW .single 0x0F .down fd fs s

/-- FLOOR.W.D (R455). -/
def execFloorWD (fd fs : Reg) (s : State) : Out :=
  fpToW .double 0x0F .down fd fs s

/-- CVT.S.D (R456). -/
def execCvtSD (fd fs : Reg) (s : State) : Out :=
  fpCvt .double .single 0x20 fd fs s

/-- CVT.S.W (R456). -/
def execCvtSW (fd fs : Reg) (s : State) : Out :=
  fpFromW .single 0x20 fd fs s

/-- CVT.S.L (R456). -/
def execCvtSL (fd fs : Reg) (s : State) : Out :=
  fpFromL .single 0x20 fd fs s

/-- CVT.D.S (R457). -/
def execCvtDS (fd fs : Reg) (s : State) : Out :=
  fpCvt .single .double 0x21 fd fs s

/-- CVT.D.W (R457). -/
def execCvtDW (fd fs : Reg) (s : State) : Out :=
  fpFromW .double 0x21 fd fs s

/-- CVT.D.L (R457). -/
def execCvtDL (fd fs : Reg) (s : State) : Out :=
  fpFromL .double 0x21 fd fs s

/-- CVT.W.S (R458). -/
def execCvtWS (fd fs : Reg) (s : State) : Out :=
  fpToW .single 0x24 s.fpEnv.rm fd fs s

/-- CVT.W.D (R458). -/
def execCvtWD (fd fs : Reg) (s : State) : Out :=
  fpToW .double 0x24 s.fpEnv.rm fd fs s

/-- CVT.L.S (R459). -/
def execCvtLS (fd fs : Reg) (s : State) : Out :=
  fpToL .single 0x25 s.fpEnv.rm fd fs s

/-- CVT.L.D (R459). -/
def execCvtLD (fd fs : Reg) (s : State) : Out :=
  fpToL .double 0x25 s.fpEnv.rm fd fs s

/-- C.F.S (R460). -/
def execCFS (fs ft : Reg) (s : State) : Out :=
  fpCmp .single 0x0 fs ft s

/-- C.F.D (R460). -/
def execCFD (fs ft : Reg) (s : State) : Out :=
  fpCmp .double 0x0 fs ft s

/-- C.UN.S (R460). -/
def execCUnS (fs ft : Reg) (s : State) : Out :=
  fpCmp .single 0x1 fs ft s

/-- C.UN.D (R460). -/
def execCUnD (fs ft : Reg) (s : State) : Out :=
  fpCmp .double 0x1 fs ft s

/-- C.EQ.S (R460). -/
def execCEqS (fs ft : Reg) (s : State) : Out :=
  fpCmp .single 0x2 fs ft s

/-- C.EQ.D (R460). -/
def execCEqD (fs ft : Reg) (s : State) : Out :=
  fpCmp .double 0x2 fs ft s

/-- C.UEQ.S (R460). -/
def execCUeqS (fs ft : Reg) (s : State) : Out :=
  fpCmp .single 0x3 fs ft s

/-- C.UEQ.D (R460). -/
def execCUeqD (fs ft : Reg) (s : State) : Out :=
  fpCmp .double 0x3 fs ft s

/-- C.OLT.S (R460). -/
def execCOltS (fs ft : Reg) (s : State) : Out :=
  fpCmp .single 0x4 fs ft s

/-- C.OLT.D (R460). -/
def execCOltD (fs ft : Reg) (s : State) : Out :=
  fpCmp .double 0x4 fs ft s

/-- C.ULT.S (R460). -/
def execCUltS (fs ft : Reg) (s : State) : Out :=
  fpCmp .single 0x5 fs ft s

/-- C.ULT.D (R460). -/
def execCUltD (fs ft : Reg) (s : State) : Out :=
  fpCmp .double 0x5 fs ft s

/-- C.OLE.S (R460). -/
def execCOleS (fs ft : Reg) (s : State) : Out :=
  fpCmp .single 0x6 fs ft s

/-- C.OLE.D (R460). -/
def execCOleD (fs ft : Reg) (s : State) : Out :=
  fpCmp .double 0x6 fs ft s

/-- C.ULE.S (R460). -/
def execCUleS (fs ft : Reg) (s : State) : Out :=
  fpCmp .single 0x7 fs ft s

/-- C.ULE.D (R460). -/
def execCUleD (fs ft : Reg) (s : State) : Out :=
  fpCmp .double 0x7 fs ft s

/-- C.SF.S (R460). -/
def execCSfS (fs ft : Reg) (s : State) : Out :=
  fpCmp .single 0x8 fs ft s

/-- C.SF.D (R460). -/
def execCSfD (fs ft : Reg) (s : State) : Out :=
  fpCmp .double 0x8 fs ft s

/-- C.NGLE.S (R460). -/
def execCNgleS (fs ft : Reg) (s : State) : Out :=
  fpCmp .single 0x9 fs ft s

/-- C.NGLE.D (R460). -/
def execCNgleD (fs ft : Reg) (s : State) : Out :=
  fpCmp .double 0x9 fs ft s

/-- C.SEQ.S (R460). -/
def execCSeqS (fs ft : Reg) (s : State) : Out :=
  fpCmp .single 0xA fs ft s

/-- C.SEQ.D (R460). -/
def execCSeqD (fs ft : Reg) (s : State) : Out :=
  fpCmp .double 0xA fs ft s

/-- C.NGL.S (R460). -/
def execCNglS (fs ft : Reg) (s : State) : Out :=
  fpCmp .single 0xB fs ft s

/-- C.NGL.D (R460). -/
def execCNglD (fs ft : Reg) (s : State) : Out :=
  fpCmp .double 0xB fs ft s

/-- C.LT.S (R460). -/
def execCLtS (fs ft : Reg) (s : State) : Out :=
  fpCmp .single 0xC fs ft s

/-- C.LT.D (R460). -/
def execCLtD (fs ft : Reg) (s : State) : Out :=
  fpCmp .double 0xC fs ft s

/-- C.NGE.S (R460). -/
def execCNgeS (fs ft : Reg) (s : State) : Out :=
  fpCmp .single 0xD fs ft s

/-- C.NGE.D (R460). -/
def execCNgeD (fs ft : Reg) (s : State) : Out :=
  fpCmp .double 0xD fs ft s

/-- C.LE.S (R460). -/
def execCLeS (fs ft : Reg) (s : State) : Out :=
  fpCmp .single 0xE fs ft s

/-- C.LE.D (R460). -/
def execCLeD (fs ft : Reg) (s : State) : Out :=
  fpCmp .double 0xE fs ft s

/-- C.NGT.S (R460). -/
def execCNgtS (fs ft : Reg) (s : State) : Out :=
  fpCmp .single 0xF fs ft s

/-- C.NGT.D (R460). -/
def execCNgtD (fs ft : Reg) (s : State) : Out :=
  fpCmp .double 0xF fs ft s

end Sys2Proof.Machine
end

