-- ==== Sys2Proof/Machine/Integer.lean ====
section
/-! DEFINITION. Integer computation (`spec/40_integer_alu.md` R200 to R240). -/

namespace Sys2Proof.Machine

/-! ### Shared shapes -/

/-- A trapping word operation: Overflow writes nothing (R201, R211, R213). -/
def trappingWord (rd : Reg) (overflows : Bool) (r : BitVec 32) (s : State) : Out :=
  if overflows then raise .arithmeticOverflow s else writeBack rd (sext32 r) s

/-- A trapping doubleword operation, after the `Ops64()` test (R209, R221, R223). -/
def trappingDouble (rd : Reg) (overflows : Bool) (r : Word) (s : State) : Out :=
  withOps64 s (if overflows then raise .arithmeticOverflow s else writeBack rd r s)

/-- A doubleword operation that cannot overflow, after the `Ops64()` test (R200(e)). -/
def plainDouble (rd : Reg) (r : Word) (s : State) : Out := withOps64 s (writeBack rd r s)

/-! ### Immediate instructions -/

/-- ADDI (R201). -/
def execAddi (rt rs : Reg) (imm : BitVec 16) (s : State) : Out :=
  let a := lowWord (s.readGpr rs)
  let b := sextImm32 imm
  trappingWord rt (addOverflows32 a b) (a + b) s

/-- ADDIU (R202). -/
def execAddiu (rt rs : Reg) (imm : BitVec 16) (s : State) : Out :=
  writeBack rt (sext32 (lowWord (s.readGpr rs) + sextImm32 imm)) s

/-- SLTI (R203). -/
def execSlti (rt rs : Reg) (imm : BitVec 16) (s : State) : Out :=
  writeBack rt (ofFlag ((s.readGpr rs).slt (sextImm imm))) s

/-- SLTIU (R204). -/
def execSltiu (rt rs : Reg) (imm : BitVec 16) (s : State) : Out :=
  writeBack rt (ofFlag ((s.readGpr rs).ult (sextImm imm))) s

/-- ANDI (R205). -/
def execAndi (rt rs : Reg) (imm : BitVec 16) (s : State) : Out :=
  writeBack rt (s.readGpr rs &&& zextImm imm) s

/-- ORI (R206). -/
def execOri (rt rs : Reg) (imm : BitVec 16) (s : State) : Out :=
  writeBack rt (s.readGpr rs ||| zextImm imm) s

/-- XORI (R207). -/
def execXori (rt rs : Reg) (imm : BitVec 16) (s : State) : Out :=
  writeBack rt (s.readGpr rs ^^^ zextImm imm) s

/-- LUI (R208). -/
def execLui (rt : Reg) (imm : BitVec 16) (s : State) : Out :=
  writeBack rt (upperImm imm) s

/-- DADDI (R209). -/
def execDaddi (rt rs : Reg) (imm : BitVec 16) (s : State) : Out :=
  let a := s.readGpr rs
  let b := sextImm imm
  trappingDouble rt (addOverflows64 a b) (a + b) s

/-- DADDIU (R210). -/
def execDaddiu (rt rs : Reg) (imm : BitVec 16) (s : State) : Out :=
  plainDouble rt (s.readGpr rs + sextImm imm) s

/-! ### Three-operand instructions -/

/-- ADD (R211). -/
def execAdd (rd rs rt : Reg) (s : State) : Out :=
  let a := lowWord (s.readGpr rs)
  let b := lowWord (s.readGpr rt)
  trappingWord rd (addOverflows32 a b) (a + b) s

/-- ADDU (R212). -/
def execAddu (rd rs rt : Reg) (s : State) : Out :=
  writeBack rd (sext32 (lowWord (s.readGpr rs) + lowWord (s.readGpr rt))) s

/-- SUB (R213). -/
def execSub (rd rs rt : Reg) (s : State) : Out :=
  let a := lowWord (s.readGpr rs)
  let b := lowWord (s.readGpr rt)
  trappingWord rd (subOverflows32 a b) (a - b) s

/-- SUBU (R214). -/
def execSubu (rd rs rt : Reg) (s : State) : Out :=
  writeBack rd (sext32 (lowWord (s.readGpr rs) - lowWord (s.readGpr rt))) s

/-- AND (R215). -/
def execAnd (rd rs rt : Reg) (s : State) : Out :=
  writeBack rd (s.readGpr rs &&& s.readGpr rt) s

/-- OR (R216). -/
def execOr (rd rs rt : Reg) (s : State) : Out :=
  writeBack rd (s.readGpr rs ||| s.readGpr rt) s

/-- XOR (R217). -/
def execXor (rd rs rt : Reg) (s : State) : Out :=
  writeBack rd (s.readGpr rs ^^^ s.readGpr rt) s

/-- NOR (R218). -/
def execNor (rd rs rt : Reg) (s : State) : Out :=
  writeBack rd (~~~(s.readGpr rs ||| s.readGpr rt)) s

/-- SLT (R219). -/
def execSlt (rd rs rt : Reg) (s : State) : Out :=
  writeBack rd (ofFlag ((s.readGpr rs).slt (s.readGpr rt))) s

/-- SLTU (R220). -/
def execSltu (rd rs rt : Reg) (s : State) : Out :=
  writeBack rd (ofFlag ((s.readGpr rs).ult (s.readGpr rt))) s

/-- DADD (R221). -/
def execDadd (rd rs rt : Reg) (s : State) : Out :=
  let a := s.readGpr rs
  let b := s.readGpr rt
  trappingDouble rd (addOverflows64 a b) (a + b) s

/-- DADDU (R222). -/
def execDaddu (rd rs rt : Reg) (s : State) : Out :=
  plainDouble rd (s.readGpr rs + s.readGpr rt) s

/-- DSUB (R223). -/
def execDsub (rd rs rt : Reg) (s : State) : Out :=
  let a := s.readGpr rs
  let b := s.readGpr rt
  trappingDouble rd (subOverflows64 a b) (a - b) s

/-- DSUBU (R224). -/
def execDsubu (rd rs rt : Reg) (s : State) : Out :=
  plainDouble rd (s.readGpr rs - s.readGpr rt) s

/-! ### Shifts -/

/-- SLL (R225). -/
def execSll (rd rt : Reg) (sa : Nat) (s : State) : Out :=
  writeBack rd (sext32 (lowWord (s.readGpr rt) <<< sa)) s

/-- SRL (R226). -/
def execSrl (rd rt : Reg) (sa : Nat) (s : State) : Out :=
  writeBack rd (sext32 (lowWord (s.readGpr rt) >>> sa)) s

/-- SRA (R227). -/
def execSra (rd rt : Reg) (sa : Nat) (s : State) : Out :=
  writeBack rd (sext32 ((lowWord (s.readGpr rt)).sshiftRight sa)) s

/-- SLLV (R228). -/
def execSllv (rd rt rs : Reg) (s : State) : Out :=
  writeBack rd (sext32 (lowWord (s.readGpr rt) <<< shiftAmount5 (s.readGpr rs))) s

/-- SRLV (R229). -/
def execSrlv (rd rt rs : Reg) (s : State) : Out :=
  writeBack rd (sext32 (lowWord (s.readGpr rt) >>> shiftAmount5 (s.readGpr rs))) s

/-- SRAV (R230). -/
def execSrav (rd rt rs : Reg) (s : State) : Out :=
  writeBack rd (sext32 ((lowWord (s.readGpr rt)).sshiftRight (shiftAmount5 (s.readGpr rs)))) s

/-- DSLL (R231). -/
def execDsll (rd rt : Reg) (sa : Nat) (s : State) : Out :=
  plainDouble rd (s.readGpr rt <<< sa) s

/-- DSRL (R232). -/
def execDsrl (rd rt : Reg) (sa : Nat) (s : State) : Out :=
  plainDouble rd (s.readGpr rt >>> sa) s

/-- DSRA (R233). -/
def execDsra (rd rt : Reg) (sa : Nat) (s : State) : Out :=
  plainDouble rd ((s.readGpr rt).sshiftRight sa) s

/-- DSLLV (R234). -/
def execDsllv (rd rt rs : Reg) (s : State) : Out :=
  plainDouble rd (s.readGpr rt <<< shiftAmount6 (s.readGpr rs)) s

/-- DSRLV (R235). -/
def execDsrlv (rd rt rs : Reg) (s : State) : Out :=
  plainDouble rd (s.readGpr rt >>> shiftAmount6 (s.readGpr rs)) s

/-- DSRAV (R236). -/
def execDsrav (rd rt rs : Reg) (s : State) : Out :=
  plainDouble rd ((s.readGpr rt).sshiftRight (shiftAmount6 (s.readGpr rs))) s

/-- DSLL32 (R237). -/
def execDsll32 (rd rt : Reg) (sa : Nat) (s : State) : Out :=
  plainDouble rd (s.readGpr rt <<< (sa + 32)) s

/-- DSRL32 (R238). -/
def execDsrl32 (rd rt : Reg) (sa : Nat) (s : State) : Out :=
  plainDouble rd (s.readGpr rt >>> (sa + 32)) s

/-- DSRA32 (R239). -/
def execDsra32 (rd rt : Reg) (sa : Nat) (s : State) : Out :=
  plainDouble rd ((s.readGpr rt).sshiftRight (sa + 32)) s

end Sys2Proof.Machine
end

