-- ==== Sys2Proof/Machine/LoadStore.lean ====
section
/-! DEFINITION. Loads, stores, LL and SC (`spec/43_load_store.md` R300 to R334). Every access checks
in the order of R300(c): `Ops64()`, alignment, translation, the bus. -/

namespace Sys2Proof.Machine

/-! ### Widths -/

/-- `sext_64` of the low `8n` bits. -/
def sextBytes (n : Nat) (v : Word) : Word := (v.setWidth (8 * n)).signExtend 64

/-- `2^k - 1` as a mask. -/
def lowOnes (k : Nat) : Word := ~~~(BitVec.allOnes 64 <<< k)

/-- `EA[1:0]` (R300(g)). -/
def byteInWord (ea : Word) : Nat := (ea.extractLsb' 0 2).toNat

/-- `EA[2:0]` (R300(g)). -/
def byteInDouble (ea : Word) : Nat := (ea.extractLsb' 0 3).toNat

/-- The aligned word that holds a physical address (R300(h)). -/
def alignWord (pa : PAddr) : PAddr := pa &&& 0xFFFFFFFC

/-- The aligned doubleword that holds a physical address (R300(h)). -/
def alignDouble (pa : PAddr) : PAddr := pa &&& 0xFFFFFFF8

/-! ### Shared shapes -/

/-- A load of `n` bytes, extended by `ext` (R301 to R307). -/
def loadGpr (n : Nat) (ext : Word → Word) (rt base : Reg) (imm : BitVec 16) (s : State) : Out :=
  loadVirt n (s.effectiveAddress base imm) s fun v => loadBack rt (ext v) s

/-- A store of the low `n` bytes of `x[rt]` (R312 to R315). -/
def storeGpr (n : Nat) (rt base : Reg) (imm : BitVec 16) (s : State) : Out :=
  storeVirt n (s.effectiveAddress base imm) (s.readGpr rt) s

/-- The word LWL merges (R308). -/
def mergeLeft (bytesKept : Nat) (old m : Word) : Word :=
  (m <<< (8 * bytesKept)) ||| (old &&& lowOnes (8 * bytesKept))

/-- The word LWR and LDR merge (R309, R311). -/
def mergeRight (bytesLoaded : Nat) (old m : Word) : Word :=
  (old &&& ~~~lowOnes (8 * bytesLoaded)) ||| m

/-- The effect of LL and LLD on the link (R330, R331). -/
def State.setLink (pa : PAddr) (s : State) : State :=
  { s with llbit := true, cp0 := { s.cp0 with llAddr := 0#4 ++ pa.extractLsb' 4 28 } }

/-- LL and LLD (R330, R331). -/
def loadLinked (n : Nat) (ext : Word → Word) (rt base : Reg) (imm : BitVec 16) (s : State) : Out :=
  withAligned .load n (s.effectiveAddress base imm) s fun pa =>
    complete (fun c => (c.setLink pa).delayLoad rt (ext (s.readBus pa n))) s

/-- SC and SCD (R332, R333). -/
def storeConditional (n : Nat) (rt base : Reg) (imm : BitVec 16) (s : State) : Out :=
  withAligned .store n (s.effectiveAddress base imm) s fun pa =>
    complete (fun c =>
      (if s.llbit then c.store pa n (s.readGpr rt) else c).setGpr rt (ofFlag s.llbit)) s

/-! ### Aligned loads -/

/-- LB (R301). -/
def execLb (rt base : Reg) (imm : BitVec 16) (s : State) : Out :=
  loadGpr 1 (sextBytes 1) rt base imm s

/-- LBU (R302). -/
def execLbu (rt base : Reg) (imm : BitVec 16) (s : State) : Out :=
  loadGpr 1 id rt base imm s

/-- LH (R303). -/
def execLh (rt base : Reg) (imm : BitVec 16) (s : State) : Out :=
  loadGpr 2 (sextBytes 2) rt base imm s

/-- LHU (R304). -/
def execLhu (rt base : Reg) (imm : BitVec 16) (s : State) : Out :=
  loadGpr 2 id rt base imm s

/-- LW (R305). -/
def execLw (rt base : Reg) (imm : BitVec 16) (s : State) : Out :=
  loadGpr 4 (sextBytes 4) rt base imm s

/-- LWU (R306). -/
def execLwu (rt base : Reg) (imm : BitVec 16) (s : State) : Out :=
  withOps64 s (loadGpr 4 id rt base imm s)

/-- LD (R307). -/
def execLd (rt base : Reg) (imm : BitVec 16) (s : State) : Out :=
  withOps64 s (loadGpr 8 id rt base imm s)

/-! ### Partial loads -/

/-- LWL (R308). -/
def execLwl (rt base : Reg) (imm : BitVec 16) (s : State) : Out :=
  let ea := s.effectiveAddress base imm
  let b := byteInWord ea
  withTranslation .load ea s fun pa =>
    loadBack rt (sextBytes 4 (mergeLeft b (s.mergeSource rt) (s.readBus pa (4 - b)))) s

/-- LWR (R309). -/
def execLwr (rt base : Reg) (imm : BitVec 16) (s : State) : Out :=
  let ea := s.effectiveAddress base imm
  let n := byteInWord ea + 1
  withTranslation .load ea s fun pa =>
    loadBack rt (sextBytes 4 (mergeRight n (s.mergeSource rt) (s.readBus (alignWord pa) n))) s

/-- LDL (R310). -/
def execLdl (rt base : Reg) (imm : BitVec 16) (s : State) : Out :=
  let ea := s.effectiveAddress base imm
  let b := byteInDouble ea
  withOps64 s (withTranslation .load ea s fun pa =>
    loadBack rt (mergeLeft b (s.mergeSource rt) (s.readBus pa (8 - b))) s)

/-- LDR (R311). -/
def execLdr (rt base : Reg) (imm : BitVec 16) (s : State) : Out :=
  let ea := s.effectiveAddress base imm
  let n := byteInDouble ea + 1
  withOps64 s (withTranslation .load ea s fun pa =>
    loadBack rt (mergeRight n (s.mergeSource rt) (s.readBus (alignDouble pa) n)) s)

/-! ### Aligned stores -/

/-- SB (R312). -/
def execSb (rt base : Reg) (imm : BitVec 16) (s : State) : Out :=
  storeGpr 1 rt base imm s

/-- SH (R313). -/
def execSh (rt base : Reg) (imm : BitVec 16) (s : State) : Out :=
  storeGpr 2 rt base imm s

/-- SW (R314). -/
def execSw (rt base : Reg) (imm : BitVec 16) (s : State) : Out :=
  storeGpr 4 rt base imm s

/-- SD (R315). -/
def execSd (rt base : Reg) (imm : BitVec 16) (s : State) : Out :=
  withOps64 s (storeGpr 8 rt base imm s)

/-! ### Partial stores -/

/-- SWL (R316). -/
def execSwl (rt base : Reg) (imm : BitVec 16) (s : State) : Out :=
  let ea := s.effectiveAddress base imm
  let b := byteInWord ea
  withTranslation .store ea s fun pa =>
    complete (·.store pa (4 - b) ((lowWord (s.readGpr rt)).setWidth 64 >>> (8 * b))) s

/-- SWR (R317). -/
def execSwr (rt base : Reg) (imm : BitVec 16) (s : State) : Out :=
  let ea := s.effectiveAddress base imm
  withTranslation .store ea s fun pa =>
    complete (·.store (alignWord pa) (byteInWord ea + 1) (s.readGpr rt)) s

/-- SDL (R318). -/
def execSdl (rt base : Reg) (imm : BitVec 16) (s : State) : Out :=
  let ea := s.effectiveAddress base imm
  let b := byteInDouble ea
  withOps64 s (withTranslation .store ea s fun pa =>
    complete (·.store pa (8 - b) (s.readGpr rt >>> (8 * b))) s)

/-- SDR (R319). -/
def execSdr (rt base : Reg) (imm : BitVec 16) (s : State) : Out :=
  let ea := s.effectiveAddress base imm
  withOps64 s (withTranslation .store ea s fun pa =>
    complete (·.store (alignDouble pa) (byteInDouble ea + 1) (s.readGpr rt)) s)

/-! ### Load linked, store conditional -/

/-- LL (R330). -/
def execLl (rt base : Reg) (imm : BitVec 16) (s : State) : Out :=
  loadLinked 4 (sextBytes 4) rt base imm s

/-- LLD (R331). -/
def execLld (rt base : Reg) (imm : BitVec 16) (s : State) : Out :=
  withOps64 s (loadLinked 8 id rt base imm s)

/-- SC (R332). -/
def execSc (rt base : Reg) (imm : BitVec 16) (s : State) : Out :=
  storeConditional 4 rt base imm s

/-- SCD (R333). -/
def execScd (rt base : Reg) (imm : BitVec 16) (s : State) : Out :=
  withOps64 s (storeConditional 8 rt base imm s)

end Sys2Proof.Machine
end

