-- ==== Sys2Proof/Machine/MulDiv.lean ====
section
/-! DEFINITION. Multiply, divide, HI and LO (`spec/41_multiply_divide.md` R250 to R263). The corner
cases of division are `Config.divCorner` (R250(e), log 7); the values the spec gives as its default
are `specDivCorner`. -/

namespace Sys2Proof.Machine

/-- The default values of `DivCorner` (R253, R254, R257, R258), LO first. -/
def specDivCorner : DivCorner where
  word a b :=
    if b = 0 then (if 0 ≤ a.toInt then 0xFFFFFFFFFFFFFFFF else 1, sext32 a)
    else (0xFFFFFFFF80000000, 0)
  wordU a _ := (0xFFFFFFFFFFFFFFFF, sext32 a)
  dword a b :=
    if b = 0 then (if 0 ≤ a.toInt then 0xFFFFFFFFFFFFFFFF else 1, a)
    else (0x8000000000000000, 0)
  dwordU a _ := (0xFFFFFFFFFFFFFFFF, a)

/-- A signed quotient that is a corner case: divisor zero, or the quotient `-2^(N-1) / -1` (R250(e)). -/
def isDivCorner {n : Nat} (a b : BitVec n) : Bool :=
  b = 0 || (a = BitVec.intMin n && b = BitVec.allOnes n)

/-- LO and HI of DIV (R253). -/
def divWord (corner : DivCorner) (a b : BitVec 32) : Word × Word :=
  if isDivCorner a b then corner.word a b
  else (sext32 (BitVec.ofInt 32 (a.toInt.tdiv b.toInt)), sext32 (BitVec.ofInt 32 (a.toInt.tmod b.toInt)))

/-- LO and HI of DIVU (R254). -/
def divWordU (corner : DivCorner) (a b : BitVec 32) : Word × Word :=
  if b = 0 then corner.wordU a b else (sext32 (a / b), sext32 (a % b))

/-- LO and HI of DDIV (R257). -/
def divDouble (corner : DivCorner) (a b : Word) : Word × Word :=
  if isDivCorner a b then corner.dword a b
  else (BitVec.ofInt 64 (a.toInt.tdiv b.toInt), BitVec.ofInt 64 (a.toInt.tmod b.toInt))

/-- LO and HI of DDIVU (R258). -/
def divDoubleU (corner : DivCorner) (a b : Word) : Word × Word :=
  if b = 0 then corner.dwordU a b else (a / b, a % b)

/-- LO and HI of an exact 64-bit product of words (R251, R252). -/
def productWord (p : Word) : Word × Word := (sext32 (p.extractLsb' 0 32), sext32 (p.extractLsb' 32 32))

/-- LO and HI of an exact 128-bit product (R255, R256). -/
def productDouble (p : BitVec 128) : Word × Word := (p.extractLsb' 0 64, p.extractLsb' 64 64)

/-- The write of LO and HI. -/
def State.setLoHi (r : Word × Word) (s : State) : State := { s with lo := r.1, hi := r.2 }

/-- HI (R260). -/
def State.setHi (v : Word) (s : State) : State := { s with hi := v }

/-- LO (R262). -/
def State.setLo (v : Word) (s : State) : State := { s with lo := v }

/-- MULT (R251). -/
def execMult (rs rt : Reg) (s : State) : Out :=
  let p := BitVec.ofInt 64 ((lowWord (s.readGpr rs)).toInt * (lowWord (s.readGpr rt)).toInt)
  complete (·.setLoHi (productWord p)) s

/-- MULTU (R252). -/
def execMultu (rs rt : Reg) (s : State) : Out :=
  let p := BitVec.ofNat 64 ((lowWord (s.readGpr rs)).toNat * (lowWord (s.readGpr rt)).toNat)
  complete (·.setLoHi (productWord p)) s

/-- DIV (R253). -/
def execDiv (rs rt : Reg) (s : State) : Out :=
  complete (·.setLoHi
    (divWord Config.divCorner (lowWord (s.readGpr rs)) (lowWord (s.readGpr rt)))) s

/-- DIVU (R254). -/
def execDivu (rs rt : Reg) (s : State) : Out :=
  complete (·.setLoHi
    (divWordU Config.divCorner (lowWord (s.readGpr rs)) (lowWord (s.readGpr rt)))) s

/-- DMULT (R255). -/
def execDmult (rs rt : Reg) (s : State) : Out :=
  let p := BitVec.ofInt 128 ((s.readGpr rs).toInt * (s.readGpr rt).toInt)
  withOps64 s (complete (·.setLoHi (productDouble p)) s)

/-- DMULTU (R256). -/
def execDmultu (rs rt : Reg) (s : State) : Out :=
  let p := BitVec.ofNat 128 ((s.readGpr rs).toNat * (s.readGpr rt).toNat)
  withOps64 s (complete (·.setLoHi (productDouble p)) s)

/-- DDIV (R257). -/
def execDdiv (rs rt : Reg) (s : State) : Out :=
  withOps64 s (complete (·.setLoHi
    (divDouble Config.divCorner (s.readGpr rs) (s.readGpr rt))) s)

/-- DDIVU (R258). -/
def execDdivu (rs rt : Reg) (s : State) : Out :=
  withOps64 s (complete (·.setLoHi
    (divDoubleU Config.divCorner (s.readGpr rs) (s.readGpr rt))) s)

/-- MFHI (R259). -/
def execMfhi (rd : Reg) (s : State) : Out :=
  writeBack rd s.hi s

/-- MTHI (R260): LO is kept. -/
def execMthi (rs : Reg) (s : State) : Out :=
  complete (·.setHi (s.readGpr rs)) s

/-- MFLO (R261). -/
def execMflo (rd : Reg) (s : State) : Out :=
  writeBack rd s.lo s

/-- MTLO (R262): HI is kept. -/
def execMtlo (rs : Reg) (s : State) : Out :=
  complete (·.setLo (s.readGpr rs)) s

end Sys2Proof.Machine
end

