-- ==== Sys2Proof/Machine/System.lean ====
section
/-! DEFINITION. SYSCALL, BREAK, the traps, SYNC, CACHE (`spec/44_trap_system.md` R340 to R356), and
COP2 (`spec/48_cop2_reserved.md` R480). The code fields are carried and not looked at (R340(b)). -/

namespace Sys2Proof.Machine

/-- A conditional trap (R340(c)). -/
def trapIf (c : Bool) (s : State) : Out := if c then raise .trap s else complete id s

/-- SYSCALL (R341). -/
def execSyscall (_code : Nat) (s : State) : Out :=
  raise .syscall s

/-- BREAK (R342). -/
def execBrk (_code : Nat) (s : State) : Out :=
  raise .breakpoint s

/-- SYNC (R343): every access is already complete (R151). -/
def execSync (s : State) : Out :=
  complete id s

/-- CACHE (R344): no cache, no address is formed. -/
def execCache (_op : Nat) (_base : Reg) (_imm : BitVec 16) (s : State) : Out :=
  withCop0 s (complete id s)

/-- TGE (R345). -/
def execTge (rs rt : Reg) (_code : Nat) (s : State) : Out :=
  trapIf (!(s.readGpr rs).slt (s.readGpr rt)) s

/-- TGEU (R346). -/
def execTgeu (rs rt : Reg) (_code : Nat) (s : State) : Out :=
  trapIf (!(s.readGpr rs).ult (s.readGpr rt)) s

/-- TLT (R347). -/
def execTlt (rs rt : Reg) (_code : Nat) (s : State) : Out :=
  trapIf ((s.readGpr rs).slt (s.readGpr rt)) s

/-- TLTU (R348). -/
def execTltu (rs rt : Reg) (_code : Nat) (s : State) : Out :=
  trapIf ((s.readGpr rs).ult (s.readGpr rt)) s

/-- TEQ (R349). -/
def execTeq (rs rt : Reg) (_code : Nat) (s : State) : Out :=
  trapIf (s.readGpr rs == s.readGpr rt) s

/-- TNE (R350). -/
def execTne (rs rt : Reg) (_code : Nat) (s : State) : Out :=
  trapIf (s.readGpr rs != s.readGpr rt) s

/-- TGEI (R351). -/
def execTgei (rs : Reg) (imm : BitVec 16) (s : State) : Out :=
  trapIf (!(s.readGpr rs).slt (sextImm imm)) s

/-- TGEIU (R352). -/
def execTgeiu (rs : Reg) (imm : BitVec 16) (s : State) : Out :=
  trapIf (!(s.readGpr rs).ult (sextImm imm)) s

/-- TLTI (R353). -/
def execTlti (rs : Reg) (imm : BitVec 16) (s : State) : Out :=
  trapIf ((s.readGpr rs).slt (sextImm imm)) s

/-- TLTIU (R354). -/
def execTltiu (rs : Reg) (imm : BitVec 16) (s : State) : Out :=
  trapIf ((s.readGpr rs).ult (sextImm imm)) s

/-- TEQI (R355). -/
def execTeqi (rs : Reg) (imm : BitVec 16) (s : State) : Out :=
  trapIf (s.readGpr rs == sextImm imm) s

/-- TNEI (R356). -/
def execTnei (rs : Reg) (imm : BitVec 16) (s : State) : Out :=
  trapIf (s.readGpr rs != sextImm imm) s

/-- COP2 (R480): raises Reserved-Instruction in every mode. -/
def execCop2 (_cofun : Nat) (s : State) : Out :=
  raise .reservedInstruction s

end Sys2Proof.Machine
end

