-- ==== Sys2Proof/Machine/Step.lean ====
section
/-! DEFINITION. One step: dispatch, one instruction, advise (`spec/50_pipeline.md` R500), and how the
outside places the next instruction (log 19). -/

namespace Sys2Proof.Machine

/-- The instruction phase after the fetch: an unrecognized word raises Reserved-Instruction (R503,
R547(a)); a fetch that faults raises its fault with the pc as bad address (R502). -/
def runFetched (f : Fetched) (s : State) : Host.Outcome State Fault Refusal :=
  match f with
  | .word w =>
    match decodeWord w with
    | .ok i => exec i s
    | .error _ => raise .reservedInstruction s
  | .raises kind => raiseAt kind s.pc s
  | .multipleMatch => .fault .tlbMultipleMatch

/-- One step (R500). -/
def step (s : State) : Host.Outcome State Fault Refusal :=
  adviseOut (runFetched s.dispatch.fetchWord s.dispatch)

/-- The ranges of the bus with memory at the address of an access (log 19). -/
def State.portsForFetch (s : State) (pa : PAddr) : List BusRange :=
  match s.owner pa with
  | .ram | .rom => s.ports
  | .device | .nobody => ⟨pa, pa, .rom⟩ :: s.ports

/-- `s` with the instruction word `w` held where the next step fetches (log 19). -/
def State.withFetchWord (s : State) (nbits w : Nat) : State :=
  match s.dispatch.translate s.dispatch.pc .fetch with
  | .physical pa _ =>
    { s with
      mem   := Memory.write s.mem pa 4 (BitVec.ofNat 64 (w % 2 ^ nbits))
      ports := s.portsForFetch pa }
  | _ => s

end Sys2Proof.Machine
end

