-- ==== Sys2Proof/Machine/HostOps.lean ====
section
/-! DEFINITION. What the host may do between steps (`spec/00_scope.md` R13): interrupt lines, reset,
advance by a cycle budget; what another agent of the bus may do; and the controller state the document derives (`spec/10_state.md` R90).
A save-state is the state itself (`spec/70_reset_and_hazards.md` R615, log 22). -/

namespace Sys2Proof.Machine

/-- The hardware-sourced interrupt lines (R88, R555). -/
inductive IrqLine where
  | line2 | line3 | line4 | line5 | line6 | line7
  deriving DecidableEq, Repr

/-- The latches with one line at a level. -/
def IrqLines.drive (q : IrqLines) (i : IrqLine) (level : Bool) : IrqLines :=
  match i with
  | .line2 => { q with irq2 := level }
  | .line3 => { q with irq3 := level }
  | .line4 => { q with irq4 := level }
  | .line5 => { q with irq5 := level }
  | .line6 => { q with irq6 := level }
  | .line7 => { q with irq7 := level }

/-- `RaiseLine(i)` (R88, R555). -/
def State.raiseLine (i : IrqLine) (s : State) : State := { s with irq := s.irq.drive i true }

/-- `LowerLine(i)` (R88, R555). -/
def State.lowerLine (i : IrqLine) (s : State) : State := { s with irq := s.irq.drive i false }

/-- `Reset()` between two steps (R581, R600): EPC and ErrorEPC are not written, the lines keep their
levels, the bus its owners and its bytes; the model's unit and its counter of free values stay. -/
def State.hostReset (s : State) : State :=
  { State.reset with
    cp0   := { Cp0.reset with epc := s.cp0.epc, errorEpc := s.cp0.errorEpc }
    irq   := s.irq
    mem   := s.mem
    ports := s.ports
    fpu   := s.fpu
    draws := s.draws }

/-- Another agent of the bus changes a byte of a memory between two steps (R150, log 22). -/
def State.busPoke (a : PAddr) (b : Byte) (s : State) : State :=
  { s with mem := Memory.setByte s.mem a.toNat b }

/-- The cycle cost of the step taken from `s`, at least 1 (R516, log 14). -/
def State.stepCost (s : State) : Nat := max 1 (Config.cycleCost s.draws)

/-- At most `fuel` steps, while the costs stay below `budget` (R517). -/
def runWithin : (fuel budget : Nat) → State → Host.Outcome State Fault Refusal
  | 0, _, s => .next s
  | fuel + 1, budget, s =>
    if budget = 0 then .next s
    else match step s with
      | .next t => runWithin fuel (budget - s.stepCost) t
      | .fault f => .fault f
      | .refused r => .refused r

/-- `Run(budget)` (R517): every step costs at least 1, so `budget` steps suffice. -/
def runBudget (budget : Nat) (s : State) : Host.Outcome State Fault Refusal :=
  runWithin budget budget s

/-- The controller states of the document (R90). -/
inductive Controller where
  | normal | exceptionPending | inHandler
  deriving DecidableEq, Repr

/-- Whether a controller state holds (R90). A fault met inside a handler makes both
ExceptionPending and InHandler hold; Normal holds when neither does. -/
def State.inController (s : State) (c : Controller) : Bool :=
  let handler := statusExl s.cp0.status || statusErl s.cp0.status
  match c with
  | .exceptionPending => s.pending.isSome
  | .inHandler => handler
  | .normal => !s.pending.isSome && !handler

end Sys2Proof.Machine
end

