-- ==== Sys2Proof/Safety.lean ====
section
/-! DEFINITION. The terms claims use: what an instruction may write (its footprint), the value a
register has once the load of the previous instruction has committed, the invariant of the machine,
and when a step cannot stop. No meaning is defined from anything here. -/

namespace Sys2Proof

/-! ### Footprints -/

/-- What an instruction may write beside the pc and the pipeline state. -/
inductive Effect where
  /-- Nothing: SYNC, CACHE, SYSCALL, BREAK, the traps, COP2. -/
  | nothing
  /-- One general register, directly. -/
  | gpr (rd : Reg)
  /-- One general register through the load delay (R503, `is_gpr_load`). -/
  | load (rt : Reg)
  /-- As `load`, with `LLbit` and LLAddr. -/
  | loadLinked (rt : Reg)
  /-- Bytes of memory. -/
  | store
  /-- Bytes of memory and one general register. -/
  | storeConditional (rt : Reg)
  | hi
  | lo
  | hiLo
  /-- A branch or jump (R503, `is_branch`). -/
  | branch
  /-- A branch or jump that links. -/
  | branchLink (rd : Reg)
  /-- One CP0 register, with the side effects of R76. -/
  | cp0 (number : Reg)
  /-- PageMask, EntryHi, EntryLo0, EntryLo1. -/
  | tlbRead
  /-- One TLB entry. -/
  | tlbWrite
  /-- Index. -/
  | tlbProbe
  /-- Status and `LLbit`. -/
  | exceptionReturn
  /-- One floating-point register, by its number in the instruction. -/
  | fpr (fd : Reg)
  | fcr31
  /-- One floating-point register and FCR31. -/
  | fprFcr31 (fd : Reg)
  deriving DecidableEq, Repr

/-- The footprint of every instruction. -/
def Instr.effect (i : Instr) : Effect :=
  match i with
  | .addi rt _ _ => .gpr rt
  | .addiu rt _ _ => .gpr rt
  | .slti rt _ _ => .gpr rt
  | .sltiu rt _ _ => .gpr rt
  | .andi rt _ _ => .gpr rt
  | .ori rt _ _ => .gpr rt
  | .xori rt _ _ => .gpr rt
  | .daddi rt _ _ => .gpr rt
  | .daddiu rt _ _ => .gpr rt
  | .lui rt _ => .gpr rt
  | .add rd _ _ => .gpr rd
  | .addu rd _ _ => .gpr rd
  | .sub rd _ _ => .gpr rd
  | .subu rd _ _ => .gpr rd
  | .and rd _ _ => .gpr rd
  | .or rd _ _ => .gpr rd
  | .xor rd _ _ => .gpr rd
  | .nor rd _ _ => .gpr rd
  | .slt rd _ _ => .gpr rd
  | .sltu rd _ _ => .gpr rd
  | .dadd rd _ _ => .gpr rd
  | .daddu rd _ _ => .gpr rd
  | .dsub rd _ _ => .gpr rd
  | .dsubu rd _ _ => .gpr rd
  | .sll rd _ _ => .gpr rd
  | .srl rd _ _ => .gpr rd
  | .sra rd _ _ => .gpr rd
  | .dsll rd _ _ => .gpr rd
  | .dsrl rd _ _ => .gpr rd
  | .dsra rd _ _ => .gpr rd
  | .dsll32 rd _ _ => .gpr rd
  | .dsrl32 rd _ _ => .gpr rd
  | .dsra32 rd _ _ => .gpr rd
  | .sllv rd _ _ => .gpr rd
  | .srlv rd _ _ => .gpr rd
  | .srav rd _ _ => .gpr rd
  | .dsllv rd _ _ => .gpr rd
  | .dsrlv rd _ _ => .gpr rd
  | .dsrav rd _ _ => .gpr rd
  | .mult _ _ => .hiLo
  | .multu _ _ => .hiLo
  | .div _ _ => .hiLo
  | .divu _ _ => .hiLo
  | .dmult _ _ => .hiLo
  | .dmultu _ _ => .hiLo
  | .ddiv _ _ => .hiLo
  | .ddivu _ _ => .hiLo
  | .mfhi rd => .gpr rd
  | .mthi _ => .hi
  | .mflo rd => .gpr rd
  | .mtlo _ => .lo
  | .j _ => .branch
  | .jal _ => .branchLink 31
  | .jr _ => .branch
  | .jalr rd _ => .branchLink rd
  | .beq _ _ _ => .branch
  | .bne _ _ _ => .branch
  | .blez _ _ => .branch
  | .bgtz _ _ => .branch
  | .beql _ _ _ => .branch
  | .bnel _ _ _ => .branch
  | .blezl _ _ => .branch
  | .bgtzl _ _ => .branch
  | .bltz _ _ => .branch
  | .bgez _ _ => .branch
  | .bltzl _ _ => .branch
  | .bgezl _ _ => .branch
  | .bltzal _ _ => .branchLink 31
  | .bgezal _ _ => .branchLink 31
  | .bltzall _ _ => .branchLink 31
  | .bgezall _ _ => .branchLink 31
  | .lb rt _ _ => .load rt
  | .lbu rt _ _ => .load rt
  | .lh rt _ _ => .load rt
  | .lhu rt _ _ => .load rt
  | .lw rt _ _ => .load rt
  | .lwu rt _ _ => .load rt
  | .ld rt _ _ => .load rt
  | .lwl rt _ _ => .load rt
  | .lwr rt _ _ => .load rt
  | .ldl rt _ _ => .load rt
  | .ldr rt _ _ => .load rt
  | .sb _ _ _ => .store
  | .sh _ _ _ => .store
  | .sw _ _ _ => .store
  | .sd _ _ _ => .store
  | .swl _ _ _ => .store
  | .swr _ _ _ => .store
  | .sdl _ _ _ => .store
  | .sdr _ _ _ => .store
  | .ll rt _ _ => .loadLinked rt
  | .lld rt _ _ => .loadLinked rt
  | .sc rt _ _ => .storeConditional rt
  | .scd rt _ _ => .storeConditional rt
  | .syscall _ => .nothing
  | .brk _ => .nothing
  | .sync => .nothing
  | .cache _ _ _ => .nothing
  | .tge _ _ _ => .nothing
  | .tgeu _ _ _ => .nothing
  | .tlt _ _ _ => .nothing
  | .tltu _ _ _ => .nothing
  | .teq _ _ _ => .nothing
  | .tne _ _ _ => .nothing
  | .tgei _ _ => .nothing
  | .tgeiu _ _ => .nothing
  | .tlti _ _ => .nothing
  | .tltiu _ _ => .nothing
  | .teqi _ _ => .nothing
  | .tnei _ _ => .nothing
  | .mfc0 rt _ => .gpr rt
  | .dmfc0 rt _ => .gpr rt
  | .mtc0 _ rd => .cp0 rd
  | .dmtc0 _ rd => .cp0 rd
  | .tlbr => .tlbRead
  | .tlbwi => .tlbWrite
  | .tlbwr => .tlbWrite
  | .tlbp => .tlbProbe
  | .eret => .exceptionReturn
  | .lwc1 ft _ _ => .fpr ft
  | .ldc1 ft _ _ => .fpr ft
  | .swc1 _ _ _ => .store
  | .sdc1 _ _ _ => .store
  | .mfc1 rt _ => .gpr rt
  | .dmfc1 rt _ => .gpr rt
  | .cfc1 rt _ => .gpr rt
  | .mtc1 _ fs => .fpr fs
  | .dmtc1 _ fs => .fpr fs
  | .ctc1 _ _ => .fcr31
  | .bc1f _ => .branch
  | .bc1t _ => .branch
  | .bc1fl _ => .branch
  | .bc1tl _ => .branch
  | .addS fd _ _ => .fprFcr31 fd
  | .addD fd _ _ => .fprFcr31 fd
  | .subS fd _ _ => .fprFcr31 fd
  | .subD fd _ _ => .fprFcr31 fd
  | .mulS fd _ _ => .fprFcr31 fd
  | .mulD fd _ _ => .fprFcr31 fd
  | .divS fd _ _ => .fprFcr31 fd
  | .divD fd _ _ => .fprFcr31 fd
  | .sqrtS fd _ => .fprFcr31 fd
  | .sqrtD fd _ => .fprFcr31 fd
  | .absS fd _ => .fprFcr31 fd
  | .absD fd _ => .fprFcr31 fd
  | .movS fd _ => .fprFcr31 fd
  | .movD fd _ => .fprFcr31 fd
  | .negS fd _ => .fprFcr31 fd
  | .negD fd _ => .fprFcr31 fd
  | .roundLS fd _ => .fprFcr31 fd
  | .roundLD fd _ => .fprFcr31 fd
  | .truncLS fd _ => .fprFcr31 fd
  | .truncLD fd _ => .fprFcr31 fd
  | .ceilLS fd _ => .fprFcr31 fd
  | .ceilLD fd _ => .fprFcr31 fd
  | .floorLS fd _ => .fprFcr31 fd
  | .floorLD fd _ => .fprFcr31 fd
  | .roundWS fd _ => .fprFcr31 fd
  | .roundWD fd _ => .fprFcr31 fd
  | .truncWS fd _ => .fprFcr31 fd
  | .truncWD fd _ => .fprFcr31 fd
  | .ceilWS fd _ => .fprFcr31 fd
  | .ceilWD fd _ => .fprFcr31 fd
  | .floorWS fd _ => .fprFcr31 fd
  | .floorWD fd _ => .fprFcr31 fd
  | .cvtSD fd _ => .fprFcr31 fd
  | .cvtSW fd _ => .fprFcr31 fd
  | .cvtSL fd _ => .fprFcr31 fd
  | .cvtDS fd _ => .fprFcr31 fd
  | .cvtDW fd _ => .fprFcr31 fd
  | .cvtDL fd _ => .fprFcr31 fd
  | .cvtWS fd _ => .fprFcr31 fd
  | .cvtWD fd _ => .fprFcr31 fd
  | .cvtLS fd _ => .fprFcr31 fd
  | .cvtLD fd _ => .fprFcr31 fd
  | .cFS _ _ => .fcr31
  | .cFD _ _ => .fcr31
  | .cUnS _ _ => .fcr31
  | .cUnD _ _ => .fcr31
  | .cEqS _ _ => .fcr31
  | .cEqD _ _ => .fcr31
  | .cUeqS _ _ => .fcr31
  | .cUeqD _ _ => .fcr31
  | .cOltS _ _ => .fcr31
  | .cOltD _ _ => .fcr31
  | .cUltS _ _ => .fcr31
  | .cUltD _ _ => .fcr31
  | .cOleS _ _ => .fcr31
  | .cOleD _ _ => .fcr31
  | .cUleS _ _ => .fcr31
  | .cUleD _ _ => .fcr31
  | .cSfS _ _ => .fcr31
  | .cSfD _ _ => .fcr31
  | .cNgleS _ _ => .fcr31
  | .cNgleD _ _ => .fcr31
  | .cSeqS _ _ => .fcr31
  | .cSeqD _ _ => .fcr31
  | .cNglS _ _ => .fcr31
  | .cNglD _ _ => .fcr31
  | .cLtS _ _ => .fcr31
  | .cLtD _ _ => .fcr31
  | .cNgeS _ _ => .fcr31
  | .cNgeD _ _ => .fcr31
  | .cLeS _ _ => .fcr31
  | .cLeD _ _ => .fcr31
  | .cNgtS _ _ => .fcr31
  | .cNgtD _ _ => .fcr31
  | .cop2 _ => .nothing

/-- `is_branch` (R503). -/
def Instr.isBranch (i : Instr) : Bool :=
  match i.effect with
  | .branch | .branchLink _ => true
  | _ => false

/-- `is_gpr_load` (R503). -/
def Instr.isGprLoad (i : Instr) : Bool :=
  match i.effect with
  | .load _ | .loadLinked _ => true
  | _ => false

/-- The 64-bit operations, which `Ops64()` gates (R177, R200(e), R250(d), R300(c), R573). -/
def Instr.is64Bit (i : Instr) : Bool :=
  match i with
  | .daddi .. | .daddiu .. | .dadd .. | .daddu .. | .dsub .. | .dsubu .. | .dsll .. | .dsrl ..
  | .dsra .. | .dsll32 .. | .dsrl32 .. | .dsra32 .. | .dsllv .. | .dsrlv .. | .dsrav ..
  | .dmult .. | .dmultu .. | .ddiv .. | .ddivu .. | .lwu .. | .ld .. | .ldl .. | .ldr ..
  | .sd .. | .sdl .. | .sdr .. | .lld .. | .scd .. | .dmfc0 .. | .dmtc0 .. | .dmfc1 ..
  | .dmtc1 .. => true
  | .addi .. | .addiu .. | .slti .. | .sltiu .. | .andi .. | .ori .. | .xori .. | .lui ..
  | .add .. | .addu .. | .sub .. | .subu .. | .and .. | .or .. | .xor .. | .nor .. | .slt ..
  | .sltu .. | .sll .. | .srl .. | .sra .. | .sllv .. | .srlv .. | .srav .. | .mult ..
  | .multu .. | .div .. | .divu .. | .mfhi .. | .mthi .. | .mflo .. | .mtlo .. | .j .. | .jal ..
  | .jr .. | .jalr .. | .beq .. | .bne .. | .blez .. | .bgtz .. | .beql .. | .bnel ..
  | .blezl .. | .bgtzl .. | .bltz .. | .bgez .. | .bltzl .. | .bgezl .. | .bltzal ..
  | .bgezal .. | .bltzall .. | .bgezall .. | .lb .. | .lbu .. | .lh .. | .lhu .. | .lw ..
  | .lwl .. | .lwr .. | .sb .. | .sh .. | .sw .. | .swl .. | .swr .. | .ll .. | .sc ..
  | .syscall .. | .brk .. | .sync | .cache .. | .tge .. | .tgeu .. | .tlt .. | .tltu ..
  | .teq .. | .tne .. | .tgei .. | .tgeiu .. | .tlti .. | .tltiu .. | .teqi .. | .tnei ..
  | .mfc0 .. | .mtc0 .. | .tlbr | .tlbwi | .tlbwr | .tlbp | .eret | .lwc1 .. | .ldc1 ..
  | .swc1 .. | .sdc1 .. | .mfc1 .. | .cfc1 .. | .mtc1 .. | .ctc1 .. | .bc1f .. | .bc1t ..
  | .bc1fl .. | .bc1tl .. | .addS .. | .addD .. | .subS .. | .subD .. | .mulS .. | .mulD ..
  | .divS .. | .divD .. | .sqrtS .. | .sqrtD .. | .absS .. | .absD .. | .movS .. | .movD ..
  | .negS .. | .negD .. | .roundLS .. | .roundLD .. | .truncLS .. | .truncLD .. | .ceilLS ..
  | .ceilLD .. | .floorLS .. | .floorLD .. | .roundWS .. | .roundWD .. | .truncWS ..
  | .truncWD .. | .ceilWS .. | .ceilWD .. | .floorWS .. | .floorWD .. | .cvtSD .. | .cvtSW ..
  | .cvtSL .. | .cvtDS .. | .cvtDW .. | .cvtDL .. | .cvtWS .. | .cvtWD .. | .cvtLS ..
  | .cvtLD .. | .cFS .. | .cFD .. | .cUnS .. | .cUnD .. | .cEqS .. | .cEqD .. | .cUeqS ..
  | .cUeqD .. | .cOltS .. | .cOltD .. | .cUltS .. | .cUltD .. | .cOleS .. | .cOleD ..
  | .cUleS .. | .cUleD .. | .cSfS .. | .cSfD .. | .cNgleS .. | .cNgleD .. | .cSeqS ..
  | .cSeqD .. | .cNglS .. | .cNglD .. | .cLtS .. | .cLtD .. | .cNgeS .. | .cNgeD .. | .cLeS ..
  | .cLeD .. | .cNgtS .. | .cNgtD .. | .cop2 .. => false

/-- The coprocessor whose usability an instruction tests (R546, R572). -/
def Instr.coprocessor (i : Instr) : Option (BitVec 2) :=
  match i with
  | .cache .. | .mfc0 .. | .dmfc0 .. | .mtc0 .. | .dmtc0 .. | .tlbr | .tlbwi | .tlbwr | .tlbp
  | .eret => some 0
  | .lwc1 .. | .ldc1 .. | .swc1 .. | .sdc1 .. | .mfc1 .. | .dmfc1 .. | .cfc1 .. | .mtc1 ..
  | .dmtc1 .. | .ctc1 .. | .bc1f .. | .bc1t .. | .bc1fl .. | .bc1tl .. | .addS .. | .addD ..
  | .subS .. | .subD .. | .mulS .. | .mulD .. | .divS .. | .divD .. | .sqrtS .. | .sqrtD ..
  | .absS .. | .absD .. | .movS .. | .movD .. | .negS .. | .negD .. | .roundLS .. | .roundLD ..
  | .truncLS .. | .truncLD .. | .ceilLS .. | .ceilLD .. | .floorLS .. | .floorLD ..
  | .roundWS .. | .roundWD .. | .truncWS .. | .truncWD .. | .ceilWS .. | .ceilWD ..
  | .floorWS .. | .floorWD .. | .cvtSD .. | .cvtSW .. | .cvtSL .. | .cvtDS .. | .cvtDW ..
  | .cvtDL .. | .cvtWS .. | .cvtWD .. | .cvtLS .. | .cvtLD .. | .cFS .. | .cFD .. | .cUnS ..
  | .cUnD .. | .cEqS .. | .cEqD .. | .cUeqS .. | .cUeqD .. | .cOltS .. | .cOltD .. | .cUltS ..
  | .cUltD .. | .cOleS .. | .cOleD .. | .cUleS .. | .cUleD .. | .cSfS .. | .cSfD .. | .cNgleS ..
  | .cNgleD .. | .cSeqS .. | .cSeqD .. | .cNglS .. | .cNglD .. | .cLtS .. | .cLtD .. | .cNgeS ..
  | .cNgeD .. | .cLeS .. | .cLeD .. | .cNgtS .. | .cNgtD .. => some 1
  | .addi .. | .addiu .. | .slti .. | .sltiu .. | .andi .. | .ori .. | .xori .. | .daddi ..
  | .daddiu .. | .lui .. | .add .. | .addu .. | .sub .. | .subu .. | .and .. | .or .. | .xor ..
  | .nor .. | .slt .. | .sltu .. | .dadd .. | .daddu .. | .dsub .. | .dsubu .. | .sll ..
  | .srl .. | .sra .. | .dsll .. | .dsrl .. | .dsra .. | .dsll32 .. | .dsrl32 .. | .dsra32 ..
  | .sllv .. | .srlv .. | .srav .. | .dsllv .. | .dsrlv .. | .dsrav .. | .mult .. | .multu ..
  | .div .. | .divu .. | .dmult .. | .dmultu .. | .ddiv .. | .ddivu .. | .mfhi .. | .mthi ..
  | .mflo .. | .mtlo .. | .j .. | .jal .. | .jr .. | .jalr .. | .beq .. | .bne .. | .blez ..
  | .bgtz .. | .beql .. | .bnel .. | .blezl .. | .bgtzl .. | .bltz .. | .bgez .. | .bltzl ..
  | .bgezl .. | .bltzal .. | .bgezal .. | .bltzall .. | .bgezall .. | .lb .. | .lbu .. | .lh ..
  | .lhu .. | .lw .. | .lwu .. | .ld .. | .lwl .. | .lwr .. | .ldl .. | .ldr .. | .sb ..
  | .sh .. | .sw .. | .sd .. | .swl .. | .swr .. | .sdl .. | .sdr .. | .ll .. | .lld .. | .sc ..
  | .scd .. | .syscall .. | .brk .. | .sync | .tge .. | .tgeu .. | .tlt .. | .tltu .. | .teq ..
  | .tne .. | .tgei .. | .tgeiu .. | .tlti .. | .tltiu .. | .teqi .. | .tnei .. | .cop2 .. => none

/-! ### Where a store goes -/

/-- Which bytes of its size a store covers. -/
inductive StoreKind where
  /-- All `n` bytes (R312 to R315, R332, R333, R403, R404). -/
  | aligned (n : Nat)
  /-- From the address to the end of its aligned `n` bytes: SWL, SDL (R316, R318). -/
  | left (n : Nat)
  /-- From the start of the aligned `n` bytes to the address: SWR, SDR (R317, R319). -/
  | right (n : Nat)
  deriving DecidableEq, Repr

/-- The address operand of a storing instruction, and the bytes it covers. -/
structure StoreShape where
  base : Reg
  imm  : BitVec 16
  kind : StoreKind
  deriving DecidableEq, Repr

/-- The bytes covered, as the address of the one bus write and its length, from the effective and the
physical address (R300, R316 to R319). -/
def StoreShape.span (h : StoreShape) (ea : Word) (pa : PAddr) : PAddr × Nat :=
  match h.kind with
  | .aligned n => (pa, n)
  | .left n => (pa, n - ea.toNat % n)
  | .right n => (pa &&& ~~~BitVec.ofNat 32 (n - 1), ea.toNat % n + 1)

/-- Where an instruction stores, if it does. -/
def Instr.storeShape (i : Instr) : Option StoreShape :=
  match i with
  | .sb _ base imm => some ⟨base, imm, .aligned 1⟩
  | .sh _ base imm => some ⟨base, imm, .aligned 2⟩
  | .sw _ base imm => some ⟨base, imm, .aligned 4⟩
  | .sd _ base imm => some ⟨base, imm, .aligned 8⟩
  | .sc _ base imm => some ⟨base, imm, .aligned 4⟩
  | .scd _ base imm => some ⟨base, imm, .aligned 8⟩
  | .swc1 _ base imm => some ⟨base, imm, .aligned 4⟩
  | .sdc1 _ base imm => some ⟨base, imm, .aligned 8⟩
  | .swl _ base imm => some ⟨base, imm, .left 4⟩
  | .sdl _ base imm => some ⟨base, imm, .left 8⟩
  | .swr _ base imm => some ⟨base, imm, .right 4⟩
  | .sdr _ base imm => some ⟨base, imm, .right 8⟩
  | .addi .. | .addiu .. | .slti .. | .sltiu .. | .andi .. | .ori .. | .xori .. | .daddi ..
  | .daddiu .. | .lui .. | .add .. | .addu .. | .sub .. | .subu .. | .and .. | .or .. | .xor ..
  | .nor .. | .slt .. | .sltu .. | .dadd .. | .daddu .. | .dsub .. | .dsubu .. | .sll .. | .srl ..
  | .sra .. | .dsll .. | .dsrl .. | .dsra .. | .dsll32 .. | .dsrl32 .. | .dsra32 .. | .sllv ..
  | .srlv .. | .srav .. | .dsllv .. | .dsrlv .. | .dsrav .. | .mult .. | .multu .. | .div ..
  | .divu .. | .dmult .. | .dmultu .. | .ddiv .. | .ddivu .. | .mfhi .. | .mthi .. | .mflo ..
  | .mtlo .. | .j .. | .jal .. | .jr .. | .jalr .. | .beq .. | .bne .. | .blez .. | .bgtz ..
  | .beql .. | .bnel .. | .blezl .. | .bgtzl .. | .bltz .. | .bgez .. | .bltzl .. | .bgezl ..
  | .bltzal .. | .bgezal .. | .bltzall .. | .bgezall .. | .lb .. | .lbu .. | .lh .. | .lhu ..
  | .lw .. | .lwu .. | .ld .. | .lwl .. | .lwr .. | .ldl .. | .ldr .. | .ll .. | .lld ..
  | .syscall .. | .brk .. | .sync | .cache .. | .tge .. | .tgeu .. | .tlt .. | .tltu .. | .teq ..
  | .tne .. | .tgei .. | .tgeiu .. | .tlti .. | .tltiu .. | .teqi .. | .tnei .. | .mfc0 ..
  | .dmfc0 .. | .mtc0 .. | .dmtc0 .. | .tlbr | .tlbwi | .tlbwr | .tlbp | .eret | .lwc1 ..
  | .ldc1 .. | .mfc1 .. | .dmfc1 .. | .cfc1 .. | .mtc1 .. | .dmtc1 .. | .ctc1 .. | .bc1f ..
  | .bc1t .. | .bc1fl .. | .bc1tl .. | .addS .. | .addD .. | .subS .. | .subD .. | .mulS ..
  | .mulD .. | .divS .. | .divD .. | .sqrtS .. | .sqrtD .. | .absS .. | .absD .. | .movS ..
  | .movD .. | .negS .. | .negD .. | .roundLS .. | .roundLD .. | .truncLS .. | .truncLD ..
  | .ceilLS .. | .ceilLD .. | .floorLS .. | .floorLD .. | .roundWS .. | .roundWD .. | .truncWS ..
  | .truncWD .. | .ceilWS .. | .ceilWD .. | .floorWS .. | .floorWD .. | .cvtSD .. | .cvtSW ..
  | .cvtSL .. | .cvtDS .. | .cvtDW .. | .cvtDL .. | .cvtWS .. | .cvtWD .. | .cvtLS .. | .cvtLD ..
  | .cFS .. | .cFD .. | .cUnS .. | .cUnD .. | .cEqS .. | .cEqD .. | .cUeqS .. | .cUeqD ..
  | .cOltS .. | .cOltD .. | .cUltS .. | .cUltD .. | .cOleS .. | .cOleD .. | .cUleS .. | .cUleD ..
  | .cSfS .. | .cSfD .. | .cNgleS .. | .cNgleD .. | .cSeqS .. | .cSeqD .. | .cNglS .. | .cNglD ..
  | .cLtS .. | .cLtD .. | .cNgeS .. | .cNgeD .. | .cLeS .. | .cLeD .. | .cNgtS .. | .cNgtD ..
  | .cop2 .. => none

/-- The general register written directly, if any. -/
def Effect.gprTarget (e : Effect) : Option Reg :=
  match e with
  | .gpr rd | .storeConditional rd | .branchLink rd => some rd
  | _ => none

/-- The register a load writes through the load delay. -/
def Effect.loadTarget (e : Effect) : Option Reg :=
  match e with
  | .load rt | .loadLinked rt => some rt
  | _ => none

/-- HI may change. -/
def Effect.writesHi (e : Effect) : Bool := e = .hi || e = .hiLo

/-- LO may change. -/
def Effect.writesLo (e : Effect) : Bool := e = .lo || e = .hiLo

/-- Memory may change. -/
def Effect.writesMem (e : Effect) : Bool :=
  match e with
  | .store | .storeConditional _ => true
  | _ => false

/-- `LLbit` may change. -/
def Effect.writesLink (e : Effect) : Bool :=
  match e with
  | .loadLinked _ | .exceptionReturn => true
  | _ => false

/-- The floating-point register, by its number in the instruction. -/
def Effect.fprTarget (e : Effect) : Option Reg :=
  match e with
  | .fpr fd | .fprFcr31 fd => some fd
  | _ => none

/-- FCR31 may change. -/
def Effect.writesFcr31 (e : Effect) : Bool :=
  match e with
  | .fcr31 | .fprFcr31 _ => true
  | _ => false

/-- The CP0 registers that may change; Random changes with Wired, the timer level in Cause with
Compare (R76). -/
def Effect.cp0Targets (e : Effect) : List Reg :=
  match e with
  | .loadLinked _ => [17]
  | .cp0 6#5 => [6, 1]
  | .cp0 11#5 => [11, 13]
  | .cp0 n => [n]
  | .tlbRead => [2, 3, 5, 10]
  | .tlbProbe => [0]
  | .exceptionReturn => [12]
  | _ => []

namespace Machine

/-! ### Registers between steps -/

/-- `x[r]` once the load of the previous instruction has reached its register (R504, 3a). -/
def State.committed (s : State) (r : Reg) : Word :=
  if r = 0 then 0
  else match s.ld with
    | some l => if l.reg = r then l.value else s.readGpr r
    | none => s.readGpr r

/-- The pc after an instruction that is not a branch completes (R505, R507). -/
def State.sequel (s : State) : Word :=
  match s.br with
  | none => s.pc + 4
  | some b => b.target

/-- `t` has, beside the pc and the pipeline state, only what the footprint allows to differ from
`s`, the pending load of `s` having committed. -/
structure Keeps (e : Effect) (s t : State) : Prop where
  gpr     : ∀ r, e.gprTarget ≠ some r → t.readGpr r = s.committed r
  hi      : e.writesHi = false → t.hi = s.hi
  lo      : e.writesLo = false → t.lo = s.lo
  llbit   : e.writesLink = false → t.llbit = s.llbit
  fpr     : ∀ k, e.fprTarget.map s.fprIndex ≠ some k → t.readFpr k = s.readFpr k
  fcr31   : e.writesFcr31 = false → t.fcr31 = s.fcr31
  cp0     : ∀ n, n ∉ e.cp0Targets → t.cp0Value n = s.cp0Value n
  tlb     : e ≠ .tlbWrite → t.tlb = s.tlb
  mem     : e.writesMem = false → t.mem = s.mem
  irq     : t.irq = s.irq
  timerIp : e ≠ .cp0 11 → t.timerIp = s.timerIp
  rng     : t.rng = s.rng
  ports   : t.ports = s.ports
  fpu     : t.fpu = s.fpu
  draws   : t.draws = s.draws

/-- `t` is `s` with only general registers, pc, branch and load state changed. -/
def SameButGpr (s t : State) : Prop :=
  { t with gpr := s.gpr, pc := s.pc, br := s.br, ld := s.ld } = s

/-- An instruction that is neither a branch nor a load completed in `t` (R504, R505, R507): `x[rd]`
is `v` where `write` is `some (rd, v)`, register 0 discarding the write (R21); every other general
register has the value the pending load leaves; the pc goes on. -/
structure Advanced (s t : State) (write : Option (Reg × Word)) : Prop where
  gpr : ∀ r, t.readGpr r =
    match write with
    | some w => if r = w.1 ∧ r ≠ 0 then w.2 else s.committed r
    | none => s.committed r
  pc  : t.pc = s.sequel
  br  : t.br = none
  ld  : t.ld = none

/-- `x[rd] <- v` and the pc: nothing else changed. -/
def WroteGpr (s t : State) (rd : Reg) (v : Word) : Prop :=
  Advanced s t (some (rd, v)) ∧ SameButGpr s t

/-- `LoadDelay(rt, v)`: the value waits for the next instruction (R510), unless `rt` is 0. -/
structure Loaded (s t : State) (rt : Reg) (v : Word) : Prop where
  gpr : ∀ r, t.readGpr r = s.committed r
  pc  : t.pc = s.sequel
  br  : t.br = none
  ld  : t.ld = if rt = 0 then none else some ⟨rt, v⟩

/-- `Branch(target)` after an optional link write `x[link] <- pc + 8`: the next instruction is a
delay slot (R506, R509). -/
structure Branched (s t : State) (link : Option Reg) (target : Word) : Prop where
  gpr  : ∀ r, t.readGpr r = if link = some r ∧ r ≠ 0 then s.pc + 8 else s.committed r
  pc   : t.pc = s.sequel
  br   : t.br = some ⟨target, s.pc⟩
  ld   : t.ld = none
  same : SameButGpr s t

/-- One bus write of the `n` bytes `b 0` to `b (n - 1)` at `pa` (R143). Where a memory owns `pa` it
holds them afterwards, and every other byte is as before; where anything else owns it the memories are
as before (R141 lets the bus ignore a write; who owns what is log 5). -/
structure StoredBytes (s t : State) (pa : PAddr) (n : Nat) (b : Nat → Byte) : Prop where
  held    : s.owner pa = .ram → ∀ i < n, Memory.byteAt t.mem (Memory.addr pa i) = some (b i)
  others  : ∀ a, (∀ i < n, Memory.addr pa i ≠ a) → Memory.byteAt t.mem a = Memory.byteAt s.mem a
  ignored : s.owner pa ≠ .ram → t.mem = s.mem

/-- `NullifyDelaySlot()` after an optional link write (R508, R509). -/
structure Nullified (s t : State) (link : Option Reg) : Prop where
  gpr  : ∀ r, t.readGpr r = if link = some r ∧ r ≠ 0 then s.pc + 8 else s.committed r
  pc   : t.pc = if s.br = none then s.pc + 8 else s.sequel
  br   : t.br = none
  ld   : t.ld = none
  same : SameButGpr s t

/-- The instruction raised a fault in `t`: the latch is filled, the pending load has committed, the
pc stays, nothing else changed (R512). -/
structure Raised (s t : State) (kind : FaultKind) (ce : BitVec 2) (bad : Option Word) : Prop where
  pending : t.pending = some
    { kind := kind, ce := ce, badvaddr := bad, inDelay := s.br.isSome,
      savedPc := s.br.elim s.pc BranchPending.branchPc }
  gpr  : ∀ r, t.readGpr r = s.committed r
  pc   : t.pc = s.pc
  br   : t.br = none
  ld   : t.ld = none
  same : { t with gpr := s.gpr, br := s.br, ld := s.ld, pending := s.pending } = s

/-- An outcome with its next state changed. -/
def mapNext (f : State → State) (o : Out) : Out :=
  match o with
  | .next t => .next (f t)
  | .fault e => .fault e
  | .refused r => .refused r

/-- `s` with every system-control register, the lines, the timer latch and the generator replaced, but
for Status and the address-space identifier of EntryHi. -/
def State.hideSystem (c : Cp0) (irq : IrqLines) (timerIp : Bool) (rng : Nat) (s : State) : State :=
  { s with
    cp0 := { c with
      status  := s.cp0.status
      entryHi := c.entryHi.extractLsb' 8 56 ++ s.cp0.entryHi.extractLsb' 0 8 }
    irq     := irq
    timerIp := timerIp
    rng     := rng }

/-! ### Floating point and the TLB in the terms of the spec -/

/-- The register and the bit that the 32-bit access `f32[i]` starts at (R41). -/
def State.fprSlot (s : State) (i : Reg) : Reg × Nat :=
  if s.cp0.status.getLsbD 26 || !i.getLsbD 0 then (i, 0) else (i - 1, 32)

/-- `f32[i] <- v` in the move and load form: the other half, and every other register, is unchanged
(R41). -/
structure WroteHalf (s t : State) (i : Reg) (v : BitVec 32) : Prop where
  advanced : Advanced s t none
  word     : (t.readFpr (s.fprSlot i).1).extractLsb' (s.fprSlot i).2 32 = v
  half     : (t.readFpr (s.fprSlot i).1).extractLsb' (32 - (s.fprSlot i).2) 32 =
    (s.readFpr (s.fprSlot i).1).extractLsb' (32 - (s.fprSlot i).2) 32
  others   : ∀ k, k ≠ (s.fprSlot i).1 → t.readFpr k = s.readFpr k
  same     : SameButGpr { s with fpr := t.fpr } t

/-- `f64[i] <- v` (R42). -/
structure WroteFpr (s t : State) (i : Reg) (v : Word) : Prop where
  advanced : Advanced s t none
  value    : t.readFpr (s.fprIndex i) = v
  others   : ∀ k, k ≠ s.fprIndex i → t.readFpr k = s.readFpr k
  same     : SameButGpr { s with fpr := t.fpr } t

/-- FCR31 with Cause E, Cause V Z O U I given, the flags of `y` added, and every other field kept
(R432). -/
def fcr31With (f : BitVec 32) (e : Bool) (x y : FpExceptions) : BitVec 32 :=
  f.extractLsb' 18 14 ++ BitVec.ofBool e ++ x ++ f.extractLsb' 7 5 ++ (f.extractLsb' 2 5 ||| y) ++
    f.extractLsb' 0 2

/-- An arithmetic instruction completed with the result `v` and the exceptions `x` (R432, step 7):
a D or L result fills the register; an S or W result its low half, the other half being free (R41,
log 10). -/
structure FpWrote (s t : State) (wide : Bool) (fd : Reg) (v : Word) (x : FpExceptions) : Prop where
  advanced : Advanced s t none
  low      : (t.readFpr (s.fprIndex fd)).extractLsb' 0 32 = v.extractLsb' 0 32
  whole    : wide = true → t.readFpr (s.fprIndex fd) = v
  others   : ∀ k, k ≠ s.fprIndex fd → t.readFpr k = s.readFpr k
  fcr31    : t.fcr31 = fcr31With s.fcr31 false x x
  same     : SameButGpr { s with fpr := t.fpr, fcr31 := t.fcr31 } t

/-- An arithmetic instruction raised FloatingPoint: the Cause field says why, nothing else is
written (R432, steps 3 and 6). -/
structure FpRaised (s t : State) (e : Bool) (x : FpExceptions) : Prop where
  raised : Raised { s with fcr31 := t.fcr31 } t .floatingPoint 0 none
  fcr31  : t.fcr31 = fcr31With s.fcr31 e x 0

/-- The numeric value of a zero, denormal or normal (R431). -/
noncomputable def fpNumber (f : FpFormat) (v : Word) : ℝ :=
  (if fpSign f v then -1 else 1) *
    (if fpExp f v = 0 then 2 ^ (1 - (f.bias : ℤ)) * ((fpFrac f v : ℝ) / 2 ^ f.fracBits)
      else 2 ^ ((fpExp f v : ℤ) - f.bias) * (1 + (fpFrac f v : ℝ) / 2 ^ f.fracBits))

/-- A number of `p + 1` significant bits, the exponent being unbounded (R435). -/
def FpGrid (f : FpFormat) (r : ℝ) : Prop :=
  ∃ (m : ℕ) (e : ℤ), 2 ^ f.fracBits ≤ m ∧ m < 2 ^ (f.fracBits + 1) ∧ |r| = m * 2 ^ e

/-- `r` is `q` rounded under `rm` with an unbounded exponent; a tie goes to the even significand
(R435). -/
structure FpRounds (f : FpFormat) (rm : RoundMode) (q r : ℝ) : Prop where
  grid : FpGrid f r
  sign : 0 < r * q
  best : match rm with
    | .nearest => ∀ c, FpGrid f c → |q - r| ≤ |q - c| ∧
        (|q - r| = |q - c| → c ≠ r →
          ∀ (m : ℕ) (e : ℤ), 2 ^ f.fracBits ≤ m → |r| = m * 2 ^ e → m < 2 ^ (f.fracBits + 1) → m % 2 = 0)
    | .towardZero => |r| ≤ |q| ∧ ∀ c, FpGrid f c → |c| ≤ |q| → |c| ≤ |r|
    | .up => q ≤ r ∧ ∀ c, FpGrid f c → q ≤ c → r ≤ c
    | .down => r ≤ q ∧ ∀ c, FpGrid f c → c ≤ q → c ≤ r

/-- The smallest normal number, `2^emin` (R433). -/
noncomputable def fpLeast (f : FpFormat) : ℝ := 2 ^ (1 - (f.bias : ℤ))

/-- The largest finite number (R431). -/
noncomputable def fpGreatest (f : FpFormat) : ℝ := (2 ^ (f.fracBits + 1) - 1) * 2 ^ ((f.bias : ℤ) - f.fracBits)

/-- `r` is the answer for a tiny result of sign `neg`: unimplemented, or flushed with U and I (R433). -/
def FpTiny (f : FpFormat) (env : FpEnv) (neg : Bool) (r : FpResult) : Prop :=
  r = if env.flush = false ∨ env.enable &&& 3 ≠ 0 then .unimplemented
    else .value (fpPack f neg (match env.rm with
      | .nearest | .towardZero => 0
      | .up => if neg then 0 else 1
      | .down => if neg then 1 else 0) 0) 3

/-- `r` is the default answer for the non-zero exact result `q`, of sign `neg`, that rounds to `n` with
an unbounded exponent: a tiny result, a normal number with I when inexact, or an overflow (R433,
R435). Whether a result that is tiny before rounding only is tiny stays open (log 11). -/
structure FpOutcome (f : FpFormat) (env : FpEnv) (q : ℝ) (neg : Bool) (n : ℝ) (r : FpResult) : Prop where
  sign     : neg = true ↔ q < 0
  rounds   : FpRounds f env.rm q n
  tiny     : |n| < fpLeast f → FpTiny f env neg r
  between  : |q| < fpLeast f → |n| = fpLeast f → FpTiny f env neg r ∨ r = .value (fpPack f neg 1 0) 1
  normal   : fpLeast f ≤ |q| → |n| ≤ fpGreatest f → ∃ v x, r = .value v x ∧ fpClass f v = .normal ∧
    fpNumber f v = n ∧ (f = .single → v.toNat < 2 ^ 32) ∧ (n = q → x = 0) ∧ (n ≠ q → x = 1)
  overflow : fpGreatest f < |n| → r = .value (
    if env.rm = .nearest ∨ (env.rm = .up ∧ neg = false) ∨ (env.rm = .down ∧ neg = true)
    then fpPack f neg f.emax 0 else fpPack f neg (f.emax - 1) (2 ^ f.fracBits - 1)) 5

/-- The integer `n` is `q` rounded under `rm` (R448 to R455, R458, R459). -/
def FpRoundsInt (rm : RoundMode) (q : ℝ) (n : ℤ) : Prop :=
  match rm with
  | .nearest => |q - n| ≤ 1 / 2 ∧ (|q - n| = 1 / 2 → n % 2 = 0)
  | .towardZero => (n : ℝ) * q ≥ 0 ∧ |(n : ℝ)| ≤ |q| ∧ |q| < |(n : ℝ)| + 1
  | .up => q ≤ n ∧ (n : ℝ) < q + 1
  | .down => (n : ℝ) ≤ q ∧ q < n + 1

/-- `value(a) < value(b)`, infinities being the extreme values (R460). -/
def fpBefore (f : FpFormat) (a b : Word) : Prop :=
  if fpClass f a = .infinity then
    fpSign f a = true ∧ ¬ (fpClass f b = .infinity ∧ fpSign f b = true)
  else if fpClass f b = .infinity then fpSign f b = false
  else fpNumber f a < fpNumber f b

/-- `value(a) = value(b)` (R460). -/
def fpSame (f : FpFormat) (a b : Word) : Prop :=
  if fpClass f a = .infinity ∨ fpClass f b = .infinity then
    fpClass f a = fpClass f b ∧ fpSign f a = fpSign f b
  else fpNumber f a = fpNumber f b

/-- `Match(e, va)`, bit by bit (R121): the region, every page-number bit the mask leaves, and the
address space unless the entry is global. -/
structure TlbEntry.Covers (e : TlbEntry) (asid : BitVec 8) (va : Word) : Prop where
  region : e.region = va.extractLsb' 62 2
  page   : ∀ k < 27, e.mask.getLsbD k = false → e.vpn2.getLsbD k = va.getLsbD (13 + k)
  space  : e.global = true ∨ e.asid = asid

/-! ### The invariant -/

/-- The kinds that carry a bad address (R87, R541). -/
def FaultKind.hasAddress (k : FaultKind) : Bool :=
  match k with
  | .addressError _ | .tlbMiss _ | .tlbInvalid _ | .tlbModified => true
  | _ => false

/-- The codes an exception can write (R542). -/
def legalCode (c : BitVec 5) : Bool := c ≤ 5 || (8 ≤ c && c ≤ 13) || c = 15

/-- Reserved and constant bits of the system-control registers read as R51 to R72 say; the code in
Cause is one that R542 lists; Random is within its bound (R52). -/
structure Cp0.Legal (c : Cp0) : Prop where
  index       : c.index &&& 0x7FFFFFC0 = 0
  random      : c.random &&& 0xFFFFFFC0 = 0
  entryLo0    : c.entryLo0 &&& 0xFFFFFFFFFC000000 = 0
  entryLo1    : c.entryLo1 &&& 0xFFFFFFFFFC000000 = 0
  context     : c.context &&& 0xF = 0
  pageMask    : c.pageMask &&& 0xFE001FFF = 0
  wired       : c.wired &&& 0xFFFFFFC0 = 0
  entryHi     : c.entryHi &&& 0x3FFFFF0000001F00 = 0
  status      : c.status &&& 0x00A80000 = 0
  cause       : c.cause &&& 0x4FFFFC83 = 0
  code        : legalCode (c.cause.extractLsb' 2 5) = true
  config      : c.config &&& 0x80FF7FF0 = 0x00066460
  configEc    : c.config.extractLsb' 28 3 = Config.configEc
  watchLo     : c.watchLo &&& 0x4 = 0
  watchHi     : c.watchHi &&& 0xFFFFFFF0 = 0
  xContext    : c.xContext &&& 0xF = 0
  parityError : c.parityError &&& 0xFFFFFF00 = 0
  tagLo       : c.tagLo &&& 0xF000003F = 0
  bound       : c.wired ≤ 31 → c.wired ≤ c.random ∧ c.random ≤ 31

/-- A fault in the latch: never an interrupt, an address exactly with the kinds that carry one, a
coprocessor number only with Coprocessor-Unusable (R87, R541). -/
structure PendingFault.Legal (p : PendingFault) : Prop where
  kind     : p.kind ≠ .interrupt
  badvaddr : p.badvaddr.isSome = p.kind.hasAddress
  ce       : p.ce = 0 ∨ (p.ce = 1 ∧ p.kind = .coprocessorUnusable)

/-- What holds between any two steps. -/
structure State.Inv (s : State) : Prop where
  /-- Memory keeps its canonical form (log 5). -/
  mem     : Memory.wf s.mem = true
  /-- Register 0 holds zero (R21). -/
  zero    : s.gpr[0] = 0
  /-- Bits 31:25 and 22:18 of FCR31 read zero (R45). -/
  fcr31   : s.fcr31 &&& ~~~fcr31Mask = 0
  cp0     : s.cp0.Legal
  /-- The masked-out bits of a stored page number are zero (R376). -/
  tlb     : ∀ i : BitVec 5, (s.tlbEntry i).vpn2 &&& (s.tlbEntry i).mask.setWidth 27 = 0
  /-- No load is pending for register 0 (R504, 3c). -/
  ld      : ∀ l, s.ld = some l → l.reg ≠ 0
  pending : ∀ p, s.pending = some p → p.Legal
  /-- A fault in the latch leaves neither a branch nor a load pending (R512). -/
  alone   : s.pending ≠ none → s.br = none ∧ s.ld = none

/-! ### When a step cannot stop -/

/-- The software invariant of R84: no address is matched by two entries. -/
def State.TlbUnambiguous (s : State) : Prop := ∀ va, (s.tlbHits va).length ≤ 1

/-- The fetch and the instruction see a TLB in which no address has two matches. -/
def State.Safe (s : State) : Prop := s.dispatch.TlbUnambiguous

end Machine

end Sys2Proof
end

