-- ==== Sys2Proof/Certificates/Slice0/Obligations.lean ====
section
/-! DEFINITION. The statements for the provers, from the numbered rules of the spec. -/

open Sys2Proof Sys2Proof.Machine

/-- Decoding an encoded instruction gives it back (30_encoding.md R160 to R175). -/
def Obligations.DecodeEncode : Prop :=
  ∀ (i : Instr) (rest : List Byte), i.wf = true →
    decode (bytesOfWord (encode i) ++ rest) = .ok (i, rest)

/-- What the decoder reads is well formed and encodes to a word it reads the same way
(30_encoding.md R161 to R168). -/
def Obligations.DecodedWellFormed : Prop :=
  ∀ (w : BitVec 32) (i : Instr), decodeWord w = .ok i →
    i.wf = true ∧ decodeWord (encode i) = .ok i

/-- Words written out from the formats decode to the instructions they stand for (30_encoding.md
R161 to R174). -/
def Obligations.SampleWords : Prop :=
  decodeWord (0b001000#6 ++ 3#5 ++ 7#5 ++ 0xFFFE#16) = .ok (.addi 7 3 0xFFFE) ∧
  decodeWord (0b000000#6 ++ 1#5 ++ 2#5 ++ 3#5 ++ 0#5 ++ 0b100001#6) = .ok (.addu 3 1 2) ∧
  decodeWord (0b000000#6 ++ 0#5 ++ 4#5 ++ 5#5 ++ 31#5 ++ 0b000000#6) = .ok (.sll 5 4 31) ∧
  decodeWord (0b000010#6 ++ 0x2345678#26) = .ok (.j 0x2345678) ∧
  decodeWord (0b000001#6 ++ 9#5 ++ 0b10001#5 ++ 0x8000#16) = .ok (.bgezal 9 0x8000) ∧
  decodeWord (0b100010#6 ++ 29#5 ++ 8#5 ++ 0x0003#16) = .ok (.lwl 8 29 3) ∧
  decodeWord (0b010000#6 ++ 1#1 ++ 0#19 ++ 0b000010#6) = .ok .tlbwi ∧
  decodeWord (0b010000#6 ++ 0b00100#5 ++ 6#5 ++ 12#5 ++ 0#11) = .ok (.mtc0 6 12) ∧
  decodeWord (0b010001#6 ++ 0b01000#5 ++ 0b00010#5 ++ 0x0010#16) = .ok (.bc1fl 0x0010) ∧
  decodeWord (0b010001#6 ++ 0b10000#5 ++ 3#5 ++ 2#5 ++ 1#5 ++ 0b000000#6) = .ok (.addS 1 2 3) ∧
  decodeWord (0b010001#6 ++ 0b10001#5 ++ 5#5 ++ 4#5 ++ 0#5 ++ 0b111100#6) = .ok (.cLtD 4 5)

/-- The words that select no instruction, in every map (30_encoding.md R169 to R176; 45_cop0.md
R380; 46_cop1_move_branch.md R415; 48_cop2_reserved.md R481 to R483). -/
def Obligations.ReservedWords : Prop :=
  ∀ w : BitVec 32,
    let rs := rsField w
    let rt := rtField w
    let fn := functField w
    (∃ e, decodeWord w = .error e) ↔
      opcodeField w ∈ [0x13#6, 0x1C#6, 0x1D#6, 0x1E#6, 0x1F#6, 0x32#6, 0x33#6, 0x36#6, 0x3A#6, 0x3B#6, 0x3E#6] ∨
      (opcodeField w = 0 ∧
        fn ∈ [0x01#6, 0x05#6, 0x0A#6, 0x0B#6, 0x0E#6, 0x15#6, 0x28#6, 0x29#6, 0x35#6, 0x37#6, 0x39#6, 0x3D#6]) ∨
      (opcodeField w = 1 ∧ ((4 ≤ rt ∧ rt ≤ 7) ∨ rt = 13 ∨ rt = 15 ∨ 20 ≤ rt)) ∨
      (opcodeField w = 0x10 ∧
        (if w.getLsbD 25 then fn ∉ [0x01#6, 0x02#6, 0x06#6, 0x08#6, 0x18#6]
          else rs ∉ [0x00#5, 0x01#5, 0x04#5, 0x05#5])) ∨
      (opcodeField w = 0x11 ∧
        (rs ∉ [0x00#5, 0x01#5, 0x02#5, 0x04#5, 0x05#5, 0x06#5, 0x08#5, 0x10#5, 0x11#5, 0x14#5, 0x15#5] ∨
          (rs = 0x08 ∧ 4 ≤ rt) ∨
          (rs = 0x10 ∧ ¬ (fn ≤ 0x0F ∨ fn ∈ [0x21#6, 0x24#6, 0x25#6] ∨ 0x30 ≤ fn)) ∨
          (rs = 0x11 ∧ ¬ (fn ≤ 0x0F ∨ fn ∈ [0x20#6, 0x24#6, 0x25#6] ∨ 0x30 ≤ fn)) ∨
          ((rs = 0x14 ∨ rs = 0x15) ∧ fn ∉ [0x20#6, 0x21#6])))

/-- A step runs the instruction the bytes at the pc decode to (50_pipeline.md R500 to R504, R514). -/
def Obligations.StepRunsDecoded : Prop :=
  ∀ (s : State) (pa : PAddr) (attr : CacheAttr) (rest : List Byte) (i : Instr),
    let b := s.dispatch.busByte true pa 4
    s.dispatch.pc.toNat % 4 = 0 →
    s.dispatch.translate s.dispatch.pc .fetch = .physical pa attr →
    decode (b 0 :: b 1 :: b 2 :: b 3 :: rest) = .ok (i, rest) →
    step s = match exec i s.dispatch with
      | .next t => .next t.advise
      | .fault f => .fault f
      | .refused r => .refused r

/-- A word that selects no instruction raises Reserved-Instruction, in every mode (30_encoding.md
R176; 50_pipeline.md R503; 60_exceptions.md R547). -/
def Obligations.UnrecognizedWordRaises : Prop :=
  ∀ (s : State) (w : BitVec 32) (e : Reject),
    s.dispatch.fetchWord = .word w → decodeWord w = .error e →
    ∃ t, step s = .next t.advise ∧ Raised s.dispatch t .reservedInstruction 0 none

/-- The fetch: alignment first, then translation, then four bytes of the bus; a fault carries the pc
(R502). -/
def Obligations.FetchFaults : Prop :=
  ∀ s : State, let d := s.dispatch
    (d.pc.extractLsb' 0 2 ≠ 0 →
      ∃ t, step s = .next t.advise ∧ Raised d t (.addressError .fetch) 0 (some d.pc)) ∧
    (d.pc.extractLsb' 0 2 = 0 → ∀ kind, d.translate d.pc .fetch = .raises kind →
      ∃ t, step s = .next t.advise ∧ Raised d t kind 0 (some d.pc)) ∧
    (d.pc.extractLsb' 0 2 = 0 → ∀ pa attr, d.translate d.pc .fetch = .physical pa attr →
      d.fetchWord = .word (d.busByte true pa 4 0 ++ d.busByte true pa 4 1 ++
        d.busByte true pa 4 2 ++ d.busByte true pa 4 3))

/-- Dispatch takes the pending fault, else an enabled interrupt, else nothing; never two (R501). -/
def Obligations.Dispatch : Prop :=
  ∀ s : State,
    (∀ p, s.pending = some p → s.dispatch = { s.exceptionEntry p with pending := none }) ∧
    (s.pending = none → s.interruptCondition = true →
      (∀ b, s.br = some b → s.dispatch = s.exceptionEntry ⟨.interrupt, 0, none, true, b.branchPc⟩) ∧
      (s.br = none → s.dispatch = s.exceptionEntry ⟨.interrupt, 0, none, false, s.pc⟩)) ∧
    (s.pending = none → s.interruptCondition = false → s.dispatch = s) ∧
    s.dispatch.pending = none ∧ s.dispatch.ld = s.ld ∧ s.dispatch.gpr = s.gpr

/-- When an interrupt is taken, line by line (R556). -/
def Obligations.InterruptCondition : Prop :=
  ∀ s : State, let m := fun i => s.cp0.status.getLsbD (8 + i)
    (s.interruptCondition = true ↔
      s.cp0.status.getLsbD 0 = true ∧ s.cp0.status.getLsbD 1 = false ∧ s.cp0.status.getLsbD 2 = false ∧
      ((s.cp0.cause.getLsbD 8 && m 0) || (s.cp0.cause.getLsbD 9 && m 1) || (s.irq.irq2 && m 2) ||
        (s.irq.irq3 && m 3) || (s.irq.irq4 && m 4) || (s.irq.irq5 && m 5) || (s.irq.irq6 && m 6) ||
        ((s.irq.irq7 || s.timerIp) && m 7)) = true) ∧
    (s.pending = none → s.cp0.status.getLsbD 0 = false → s.dispatch = s) ∧
    (∀ p, s.pending = some p → s.dispatch = { s.exceptionEntry p with pending := none })

/-- What an exception entry saves and changes, at exception level 0 and 1, and the code of every
kind (60_exceptions.md R542, R550, R561). -/
def Obligations.ExceptionEntryRegisters : Prop :=
  ∀ (s : State) (p : PendingFault), let t := s.exceptionEntry p
    (s.cp0.status.getLsbD 1 = false → t.cp0.epc = p.savedPc ∧ t.cp0.cause.getLsbD 31 = p.inDelay) ∧
    (s.cp0.status.getLsbD 1 = true →
      t.cp0.epc = s.cp0.epc ∧ t.cp0.cause.getLsbD 31 = s.cp0.cause.getLsbD 31) ∧
    t.cp0.cause.extractLsb' 2 5 = (match p.kind with
      | .interrupt => 0
      | .tlbModified => 1
      | .tlbMiss i | .tlbInvalid i => if i = .store then 3 else 2
      | .addressError i => if i = .store then 5 else 4
      | .syscall => 8
      | .breakpoint => 9
      | .reservedInstruction => 10
      | .coprocessorUnusable => 11
      | .arithmeticOverflow => 12
      | .trap => 13
      | .floatingPoint => 15) ∧
    t.cp0.cause.extractLsb' 28 2 = p.ce ∧
    t.cp0.cause.extractLsb' 8 2 = s.cp0.cause.extractLsb' 8 2 ∧
    t.cp0.cause.getLsbD 30 = false ∧ t.cp0.cause.extractLsb' 16 12 = 0 ∧ t.cp0.cause.getLsbD 7 = false ∧
    t.cp0.cause.extractLsb' 0 2 = 0 ∧
    (∀ i < 32, t.cp0.status.getLsbD i = (decide (i = 1) || s.cp0.status.getLsbD i)) ∧
    t.mode = .kernel ∧ t.interruptCondition = false ∧ t.br = none ∧
    { t with cp0 := s.cp0, pc := s.pc, br := s.br } = s ∧
    { t.cp0 with
      epc := s.cp0.epc, cause := s.cp0.cause, status := s.cp0.status, badVAddr := s.cp0.badVAddr,
      context := s.cp0.context, xContext := s.cp0.xContext, entryHi := s.cp0.entryHi } = s.cp0

/-- The six vectors (R551). Which bit extends the address in which mode is XAddr() of R550; that
mode Undefined counts as 0 is R550 too. -/
def Obligations.ExceptionVectors : Prop :=
  ∀ (s : State) (p : PendingFault),
    let pc := (s.exceptionEntry p).pc
    let bev := s.cp0.status.getLsbD 22
    let refill := (∃ i, p.kind = .tlbMiss i) ∧ s.cp0.status.getLsbD 1 = false
    let ksu := s.cp0.status.extractLsb' 3 2
    let extended := if s.cp0.status.getLsbD 2 = true ∨ ksu = 0 then s.cp0.status.getLsbD 7
      else if ksu = 1 then s.cp0.status.getLsbD 6
      else if ksu = 2 then s.cp0.status.getLsbD 5
      else false
    (refill → extended = false → pc = if bev then 0xFFFFFFFFBFC00200 else 0xFFFFFFFF80000000) ∧
    (refill → extended = true → pc = if bev then 0xFFFFFFFFBFC00280 else 0xFFFFFFFF80000080) ∧
    (¬ refill → pc = if bev then 0xFFFFFFFFBFC00380 else 0xFFFFFFFF80000180) ∧
    (s.exceptionEntry p).translate pc .fetch = .physical (directAddr pc) (if bev then .uncached else .cached)

/-- What an address or TLB exception records of the bad address (60_exceptions.md R552; 10_state.md
R54, R57, R58, R70). -/
def Obligations.ExceptionRecords : Prop :=
  ∀ (s : State) (va : Word) (ce : BitVec 2) (bd : Bool) (pc : Word),
    let after := fun k bad => (s.exceptionEntry ⟨k, ce, bad, bd, pc⟩).cp0
    (∀ i, let c := after (.addressError i) (some va)
      c.badVAddr = va ∧ c.context = s.cp0.context ∧ c.xContext = s.cp0.xContext ∧ c.entryHi = s.cp0.entryHi) ∧
    (∀ k, (∃ i, k = .tlbMiss i ∨ k = .tlbInvalid i) ∨ k = .tlbModified →
      let c := after k (some va)
      c.badVAddr = va ∧
      c.context.extractLsb' 4 19 = va.extractLsb' 13 19 ∧
      c.context.extractLsb' 23 41 = s.cp0.context.extractLsb' 23 41 ∧
      c.xContext.extractLsb' 4 27 = va.extractLsb' 13 27 ∧ c.xContext.extractLsb' 31 2 = va.extractLsb' 62 2 ∧
      c.xContext.extractLsb' 33 31 = s.cp0.xContext.extractLsb' 33 31 ∧
      c.entryHi.extractLsb' 13 27 = va.extractLsb' 13 27 ∧ c.entryHi.extractLsb' 62 2 = va.extractLsb' 62 2 ∧
      c.entryHi.extractLsb' 0 8 = s.cp0.entryHi.extractLsb' 0 8) ∧
    (∀ k bad, k.hasAddress = false →
      let c := after k bad
      c.badVAddr = s.cp0.badVAddr ∧ c.context = s.cp0.context ∧ c.xContext = s.cp0.xContext ∧
      c.entryHi = s.cp0.entryHi)

/-- Count advances at the end of a step; passing or reaching Compare sets the timer latch
(50_pipeline.md R514, R515; 10_state.md R59, R89). -/
def Obligations.CountAndTimer : Prop :=
  ∀ s : State, let t := s.advise
    let inc := Config.countInc s.draws
    t.cp0.count = s.cp0.count + BitVec.ofNat 32 inc ∧
    (t.timerIp = true ↔
      s.timerIp = true ∨ ∃ k, 1 ≤ k ∧ k ≤ inc ∧ s.cp0.count + BitVec.ofNat 32 k = s.cp0.compare) ∧
    { t with cp0 := s.cp0, timerIp := s.timerIp, rng := s.rng, draws := s.draws } = s ∧
    { t.cp0 with count := s.cp0.count, random := s.cp0.random } = s.cp0

/-- What a reset leaves, from any state, and where the first step then fetches (R600). The first
fetch is R602 of 70_reset_and_hazards.md. -/
def Obligations.ResetValues : Prop :=
  let holds := fun t : State =>
    t.pc = 0xFFFFFFFFBFC00000 ∧
    t.cp0.status.getLsbD 2 = true ∧ t.cp0.status.getLsbD 22 = true ∧ t.cp0.status.getLsbD 21 = false ∧
    t.cp0.status.getLsbD 20 = false ∧ t.cp0.status.getLsbD 27 = false ∧
    t.cp0.config.extractLsb' 24 4 = 0 ∧ t.cp0.config.getLsbD 15 = true ∧
    t.cp0.config.extractLsb' 28 3 = Config.configEc ∧
    t.cp0.random = 31 ∧ t.cp0.wired = 0 ∧
    t.br = none ∧ t.ld = none ∧ t.pending = none ∧ t.timerIp = false ∧ t.mode = .kernel
  holds State.reset ∧ ∀ s : State,
    holds s.hostReset ∧ s.hostReset.irq = s.irq ∧
    s.hostReset.cp0.epc = s.cp0.epc ∧ s.hostReset.cp0.errorEpc = s.cp0.errorEpc ∧
    s.hostReset.dispatch = s.hostReset ∧
    s.hostReset.translate s.hostReset.pc .fetch = .physical 0x1FC00000 .uncached

/-- The state after reset meets the invariant (10_state.md R21, R45, R51 to R72, R91). -/
def Obligations.ResetInvariant : Prop :=
  State.reset.Inv

/-- Every step keeps the invariant (10_state.md R21, R45, R51 to R75, R86, R87; 45_cop0.md R376;
50_pipeline.md R504, R512; 60_exceptions.md R541, R542). -/
def Obligations.StepInvariant : Prop :=
  ∀ s t : State, s.Inv → step s = .next t → t.Inv

/-- A step stops only when two TLB entries match one address (20_memory.md R124; 60_exceptions.md
R540). -/
def Obligations.NoStop : Prop :=
  ∀ s : State, (∀ r, step s ≠ .refused r) ∧ (s.Safe → ∃ t, step s = .next t)

/-- The frame of every instruction, memory included (40_integer_alu.md R200; 41_multiply_divide.md
R250; 42_branch_jump.md R270; 43_load_store.md R300, R312 to R319, R332, R333; 44_trap_system.md
R340; 45_cop0.md R370; 46_cop1_move_branch.md R400, R403, R404; 47_cop1_arith.md R432;
50_pipeline.md R504, R512). -/
def Obligations.Footprint : Prop :=
  ∀ (i : Instr) (s t : State), exec i s = .next t →
    Keeps i.effect s t ∧
    (i.storeShape = none → t.mem = s.mem) ∧
    ∀ h, i.storeShape = some h →
      let ea := s.readGpr h.base + h.imm.signExtend 64
      (∀ pa attr, s.translate ea .store = .physical pa attr →
        let at_ := h.span ea pa
        ∀ a, (∀ k < at_.2, Memory.addr at_.1 k ≠ a) → Memory.byteAt t.mem a = Memory.byteAt s.mem a) ∧
      ((∀ pa attr, s.translate ea .store ≠ .physical pa attr) → t.mem = s.mem)

/-- A fault writes nothing but the latch, and FCR31 only as R512 lets it (R512). -/
def Obligations.PreciseFaults : Prop :=
  ∀ (s t : State) (p : PendingFault), s.pending = none →
    runFetched s.fetchWord s = .next t → t.pending = some p →
    ∃ kind ce bad, Raised { s with fcr31 := t.fcr31 } t kind ce bad ∧
      bad.isSome = kind.hasAddress ∧ (ce ≠ 0 → kind = .coprocessorUnusable) ∧
      (t.fcr31 ≠ s.fcr31 → kind = .floatingPoint ∧
        ∃ w i, s.fetchWord = .word w ∧ decodeWord w = .ok i ∧ i.effect.writesFcr31 = true ∧
          ((∃ rt, i = .ctc1 rt 31) ∨
            ∀ k < 32, ¬ (12 ≤ k ∧ k ≤ 17) → t.fcr31.getLsbD k = s.fcr31.getLsbD k))

/-- After an instruction that completed, what is pending (50_pipeline.md R503, R518(e), R518(f)). -/
def Obligations.PipelineState : Prop :=
  ∀ (i : Instr) (s t : State), exec i s = .next t → t.pending = s.pending → s.pending = none →
    (t.ld.map LoadPending.reg = i.effect.loadTarget.filter (· ≠ 0)) ∧
    (∀ b, t.br = some b → i.isBranch = true ∧ b.branchPc = s.pc) ∧
    (i.isBranch = false → t.br = none)

/-- Only ERET and a move to Status change the mode within an instruction (10_state.md R62, R80;
60_exceptions.md R570). -/
def Obligations.ModeChanges : Prop :=
  ∀ (i : Instr) (s t : State), exec i s = .next t →
    (t.mode ≠ s.mode → i = .eret ∨ (∃ rt, i = .mtc0 rt 12) ∨ (∃ rt, i = .dmtc0 rt 12)) ∧
    (i ≠ .eret → (∀ rt, i ≠ .mtc0 rt 12 ∧ i ≠ .dmtc0 rt 12) → t.cp0.status = s.cp0.status)

/-- With coprocessor 0 unusable, no instruction changes the system state but LLAddr, nor learns more
of it than Status, the ASID and the TLB show (60_exceptions.md R571, R572). -/
def Obligations.SystemStateProtected : Prop :=
  ∀ (i : Instr) (s : State), s.copUsable0 = false →
    (∀ t, exec i s = .next t →
      t.tlb = s.tlb ∧ { t.cp0 with llAddr := s.cp0.llAddr } = s.cp0) ∧
    ∀ (c : Cp0) (irq : IrqLines) (timerIp : Bool) (rng : Nat),
      let hide := State.hideSystem c irq timerIp rng
      mapNext hide (exec i (hide s)) = mapNext hide (exec i s)

/-- Every 64-bit operation raises Reserved-Instruction when 64-bit operations are disabled
(30_encoding.md R177; 60_exceptions.md R547(b), R573). -/
def Obligations.DisabledDoubleword : Prop :=
  (∀ s : State, s.ops64 = true ↔
      s.mode = .kernel ∨ (s.mode = .supervisor ∧ s.cp0.status.getLsbD 6 = true) ∨
        (s.mode = .user ∧ s.cp0.status.getLsbD 5 = true)) ∧
  ∀ (i : Instr) (s : State), i.is64Bit = true → s.ops64 = false →
    (i.coprocessor = some 0 → s.copUsable0 = true) → (i.coprocessor = some 1 → s.copUsable1 = true) →
    ∃ t, exec i s = .next t ∧ Raised s t .reservedInstruction 0 none

/-- When a coprocessor is usable, and what every instruction of an unusable one raises (R546). When
a coprocessor is usable is R572 of 60_exceptions.md, with the coprocessor rows of R571; Kernel
mode is R80 of 10_state.md. -/
def Obligations.CoprocessorUnusable : Prop :=
  ∀ (i : Instr) (s : State),
    let kernel := s.cp0.status.getLsbD 1 = true ∨ s.cp0.status.getLsbD 2 = true ∨
      s.cp0.status.extractLsb' 3 2 = 0
    (s.mode = .kernel ↔ kernel) ∧
    (s.copUsable0 = true ↔ kernel ∨ s.cp0.status.getLsbD 28 = true) ∧
    (s.copUsable1 = true ↔ s.cp0.status.getLsbD 29 = true) ∧
    (i.coprocessor = some 0 → s.mode ≠ .kernel → s.cp0.status.getLsbD 28 = false →
      ∃ t, exec i s = .next t ∧ Raised s t .coprocessorUnusable 0 none) ∧
    (i.coprocessor = some 1 → s.cp0.status.getLsbD 29 = false →
      ∃ t, exec i s = .next t ∧ Raised s t .coprocessorUnusable 1 none) ∧
    (i.coprocessor = some 0 ↔ opcodeField (encode i) = 0x10 ∨ opcodeField (encode i) = 0x2F) ∧
    (i.coprocessor = some 1 ↔ opcodeField (encode i) ∈ [0x11#6, 0x31#6, 0x35#6, 0x39#6, 0x3D#6]) ∧
    ∀ p : PendingFault, p.kind = .coprocessorUnusable →
      let c := (s.exceptionEntry p).cp0.cause
      c.extractLsb' 2 5 = 11 ∧ c.extractLsb' 28 2 = p.ce ∧
      (s.exceptionEntry p).pc =
        if s.cp0.status.getLsbD 22 then 0xFFFFFFFFBFC00380 else 0xFFFFFFFF80000180

/-- ADDU, SUBU, ADDIU: the low word of the exact result, sign-extended (40_integer_alu.md R200,
R202, R212, R214). -/
def Obligations.AddSubtractWord : Prop :=
  ∀ (s : State) (rd rs rt : Reg) (imm : BitVec 16),
    let word := fun v : Word => (v.setWidth 32).signExtend 64
    (∃ t, exec (.addu rd rs rt) s = .next t ∧ WroteGpr s t rd (word (s.readGpr rs + s.readGpr rt))) ∧
    (∃ t, exec (.subu rd rs rt) s = .next t ∧ WroteGpr s t rd (word (s.readGpr rs - s.readGpr rt))) ∧
    (∃ t, exec (.addiu rt rs imm) s = .next t ∧ WroteGpr s t rt (word (s.readGpr rs + imm.signExtend 64)))

/-- ADD, ADDI, SUB: the exact result, or Overflow and nothing written (40_integer_alu.md R200, R201,
R211, R213; 60_exceptions.md R548). -/
def Obligations.TrappingWord : Prop :=
  ∀ (s : State) (rd rs rt : Reg) (imm : BitVec 16),
    let a := ((s.readGpr rs).setWidth 32).toInt
    let b := ((s.readGpr rt).setWidth 32).toInt
    let fits := fun r : Int => -2 ^ 31 ≤ r ∧ r < 2 ^ 31
    let gives := fun (i : Instr) (rd : Reg) (r : Int) =>
      (fits r → ∃ t, exec i s = .next t ∧ WroteGpr s t rd (BitVec.ofInt 64 r)) ∧
      (¬ fits r → ∃ t, exec i s = .next t ∧ Raised s t .arithmeticOverflow 0 none)
    gives (.add rd rs rt) rd (a + b) ∧ gives (.sub rd rs rt) rd (a - b) ∧
      gives (.addi rt rs imm) rt (a + imm.toInt)

/-- DADDU, DSUBU, DADDIU wrap; DADD, DSUB, DADDI give the exact result or Overflow
(40_integer_alu.md R200, R209, R210, R221 to R224; 60_exceptions.md R548). -/
def Obligations.DoublewordArithmetic : Prop :=
  ∀ (s : State) (rd rs rt : Reg) (imm : BitVec 16), s.ops64 = true →
    let a := s.readGpr rs
    let b := s.readGpr rt
    let c : Word := imm.signExtend 64
    let fits := fun r : Int => -2 ^ 63 ≤ r ∧ r < 2 ^ 63
    let gives := fun (i : Instr) (rd : Reg) (r : Int) =>
      (fits r → ∃ t, exec i s = .next t ∧ ∃ v, v.toInt = r ∧ WroteGpr s t rd v) ∧
      (¬ fits r → ∃ t, exec i s = .next t ∧ Raised s t .arithmeticOverflow 0 none)
    (∃ t, exec (.daddu rd rs rt) s = .next t ∧ WroteGpr s t rd (a + b)) ∧
    (∃ t, exec (.dsubu rd rs rt) s = .next t ∧ WroteGpr s t rd (a - b)) ∧
    (∃ t, exec (.daddiu rt rs imm) s = .next t ∧ WroteGpr s t rt (a + c)) ∧
    gives (.dadd rd rs rt) rd (a.toInt + b.toInt) ∧ gives (.dsub rd rs rt) rd (a.toInt - b.toInt) ∧
    gives (.daddi rt rs imm) rt (a.toInt + c.toInt)

/-- AND, OR, XOR, NOR, ANDI, ORI, XORI, LUI, bit by bit (40_integer_alu.md R205 to R208, R215 to
R218). -/
def Obligations.Logical : Prop :=
  ∀ (s : State) (rd rs rt : Reg) (imm : BitVec 16),
    let a := fun k => (s.readGpr rs).getLsbD k
    let b := fun k => (s.readGpr rt).getLsbD k
    let c := fun k => imm.getLsbD k
    let gives := fun (i : Instr) (rd : Reg) (bit : Nat → Bool) =>
      ∃ t, exec i s = .next t ∧ ∃ v : Word, WroteGpr s t rd v ∧ ∀ k < 64, v.getLsbD k = bit k
    gives (.and rd rs rt) rd (fun k => a k && b k) ∧ gives (.or rd rs rt) rd (fun k => a k || b k) ∧
    gives (.xor rd rs rt) rd (fun k => a k ^^ b k) ∧ gives (.nor rd rs rt) rd (fun k => !(a k || b k)) ∧
    gives (.andi rt rs imm) rt (fun k => a k && c k) ∧ gives (.ori rt rs imm) rt (fun k => a k || c k) ∧
    gives (.xori rt rs imm) rt (fun k => a k ^^ c k) ∧
    gives (.lui rt imm) rt (fun k => if k < 16 then false else if k < 32 then c (k - 16) else c 15)

/-- SLT, SLTI compare signed, SLTU, SLTIU unsigned, on all 64 bits (40_integer_alu.md R203, R204,
R219, R220). -/
def Obligations.SetLessThan : Prop :=
  ∀ (s : State) (rd rs rt : Reg) (imm : BitVec 16),
    let a := s.readGpr rs
    let b := s.readGpr rt
    let c : Word := imm.signExtend 64
    (∃ t, exec (.slt rd rs rt) s = .next t ∧ WroteGpr s t rd (if a.toInt < b.toInt then 1 else 0)) ∧
    (∃ t, exec (.sltu rd rs rt) s = .next t ∧ WroteGpr s t rd (if a.toNat < b.toNat then 1 else 0)) ∧
    (∃ t, exec (.slti rt rs imm) s = .next t ∧ WroteGpr s t rt (if a.toInt < c.toInt then 1 else 0)) ∧
    (∃ t, exec (.sltiu rt rs imm) s = .next t ∧ WroteGpr s t rt (if a.toNat < c.toNat then 1 else 0))

/-- SLL, SRL, SRA and their variable forms on the low word (40_integer_alu.md R225 to R230, R240). -/
def Obligations.ShiftWord : Prop :=
  ∀ (s : State) (rd rt rs : Reg),
    let w := (s.readGpr rt).setWidth 32
    let left := fun n : Nat => (BitVec.ofNat 32 (w.toNat * 2 ^ n)).signExtend 64
    let right := fun n : Nat => (BitVec.ofNat 32 (w.toNat / 2 ^ n)).signExtend 64
    let arith := fun n : Nat => BitVec.ofInt 64 (w.toInt / 2 ^ n)
    let v := (s.readGpr rs).toNat % 32
    let gives := fun (i : Instr) (r : Word) => ∃ t, exec i s = .next t ∧ WroteGpr s t rd r
    (∀ sa, sa < 32 → gives (.sll rd rt sa) (left sa) ∧ gives (.srl rd rt sa) (right sa) ∧
      gives (.sra rd rt sa) (arith sa)) ∧
    gives (.sllv rd rt rs) (left v) ∧ gives (.srlv rd rt rs) (right v) ∧ gives (.srav rd rt rs) (arith v)

/-- DSLL, DSRL, DSRA, their 32-bit-further forms and their variable forms (40_integer_alu.md R231 to
R240). -/
def Obligations.ShiftDoubleword : Prop :=
  ∀ (s : State) (rd rt rs : Reg), s.ops64 = true →
    let x := s.readGpr rt
    let left := fun n : Nat => BitVec.ofNat 64 (x.toNat * 2 ^ n)
    let right := fun n : Nat => BitVec.ofNat 64 (x.toNat / 2 ^ n)
    let arith := fun n : Nat => BitVec.ofInt 64 (x.toInt / 2 ^ n)
    let v := (s.readGpr rs).toNat % 64
    let gives := fun (i : Instr) (r : Word) => ∃ t, exec i s = .next t ∧ WroteGpr s t rd r
    (∀ sa, sa < 32 → gives (.dsll rd rt sa) (left sa) ∧ gives (.dsrl rd rt sa) (right sa) ∧
      gives (.dsra rd rt sa) (arith sa) ∧ gives (.dsll32 rd rt sa) (left (sa + 32)) ∧
      gives (.dsrl32 rd rt sa) (right (sa + 32)) ∧ gives (.dsra32 rd rt sa) (arith (sa + 32))) ∧
    gives (.dsllv rd rt rs) (left v) ∧ gives (.dsrlv rd rt rs) (right v) ∧ gives (.dsrav rd rt rs) (arith v)

/-- MULT, MULTU, DMULT, DMULTU leave the exact product in HI and LO (41_multiply_divide.md R250 to
R252, R255, R256). -/
def Obligations.Multiply : Prop :=
  ∀ (s : State) (rs rt : Reg),
    let a := s.readGpr rs
    let b := s.readGpr rt
    let half := fun (p : Int) (k : Nat) => (BitVec.ofInt 32 (p / 2 ^ k)).signExtend 64
    let gives := fun (i : Instr) (lo hi : Word) =>
      ∃ t, exec i s = .next t ∧ Advanced s t none ∧ t.lo = lo ∧ t.hi = hi ∧
        SameButGpr { s with lo := t.lo, hi := t.hi } t
    let sw := (a.setWidth 32).toInt * (b.setWidth 32).toInt
    let uw : Int := ((a.setWidth 32).toNat * (b.setWidth 32).toNat : Nat)
    gives (.mult rs rt) (half sw 0) (half sw 32) ∧ gives (.multu rs rt) (half uw 0) (half uw 32) ∧
    (s.ops64 = true →
      gives (.dmult rs rt) (BitVec.ofInt 64 (a.toInt * b.toInt)) (BitVec.ofInt 64 (a.toInt * b.toInt / 2 ^ 64)) ∧
      gives (.dmultu rs rt) (BitVec.ofNat 64 (a.toNat * b.toNat)) (BitVec.ofNat 64 (a.toNat * b.toNat / 2 ^ 64)))

/-- DIV, DIVU, DDIV, DDIVU truncate toward zero; the corner cases complete too
(41_multiply_divide.md R250, R253, R254, R257, R258). -/
def Obligations.Divide : Prop :=
  ∀ (s : State) (rs rt : Reg),
    let a := s.readGpr rs
    let b := s.readGpr rt
    let aw := a.setWidth 32
    let bw := b.setWidth 32
    let word := fun r : Int => (BitVec.ofInt 32 r).signExtend 64
    let gives := fun (i : Instr) (normal : Prop) (lo hi : Word) =>
      ∃ t, exec i s = .next t ∧ Advanced s t none ∧ (normal → t.lo = lo ∧ t.hi = hi) ∧
        SameButGpr { s with lo := t.lo, hi := t.hi } t
    gives (.div rs rt) (bw ≠ 0 ∧ ¬ (aw.toInt = -2 ^ 31 ∧ bw.toInt = -1))
      (word (aw.toInt.tdiv bw.toInt)) (word (aw.toInt.tmod bw.toInt)) ∧
    gives (.divu rs rt) (bw ≠ 0) (word (aw.toNat / bw.toNat : Nat)) (word (aw.toNat % bw.toNat : Nat)) ∧
    (s.ops64 = true →
      gives (.ddiv rs rt) (b ≠ 0 ∧ ¬ (a.toInt = -2 ^ 63 ∧ b.toInt = -1))
        (BitVec.ofInt 64 (a.toInt.tdiv b.toInt)) (BitVec.ofInt 64 (a.toInt.tmod b.toInt)) ∧
      gives (.ddivu rs rt) (b ≠ 0) (BitVec.ofNat 64 (a.toNat / b.toNat)) (BitVec.ofNat 64 (a.toNat % b.toNat)))

/-- MFHI, MFLO, MTHI, MTLO (41_multiply_divide.md R259 to R262). -/
def Obligations.HiLoMoves : Prop :=
  ∀ (s : State) (r : Reg),
    (∃ t, exec (.mfhi r) s = .next t ∧ WroteGpr s t r s.hi) ∧
    (∃ t, exec (.mflo r) s = .next t ∧ WroteGpr s t r s.lo) ∧
    (∃ t, exec (.mthi r) s = .next t ∧ Advanced s t none ∧ SameButGpr { s with hi := s.readGpr r } t) ∧
    (∃ t, exec (.mtlo r) s = .next t ∧ Advanced s t none ∧ SameButGpr { s with lo := s.readGpr r } t)

/-- J, JAL, JR, JALR schedule their target and link pc + 8 (42_branch_jump.md R270 to R274;
50_pipeline.md R506, R509). -/
def Obligations.Jumps : Prop :=
  ∀ (s : State) (target : BitVec 26) (rd rs : Reg),
    let abs : Word := (s.pc + 4).extractLsb' 28 36 ++ target ++ 0#2
    (∃ t, exec (.j target) s = .next t ∧ Branched s t none abs) ∧
    (∃ t, exec (.jal target) s = .next t ∧ Branched s t (some 31) abs) ∧
    (∃ t, exec (.jr rs) s = .next t ∧ Branched s t none (s.readGpr rs)) ∧
    (∃ t, exec (.jalr rd rs) s = .next t ∧ Branched s t (some rd) (s.readGpr rs))

/-- The conditional branches: taken to the offset, not taken to pc + 8, the slot executing either
way (42_branch_jump.md R270, R275 to R278, R283, R284, R287, R288; 50_pipeline.md R506). -/
def Obligations.ConditionalBranches : Prop :=
  ∀ (s : State) (rs rt : Reg) (imm : BitVec 16),
    let a := (s.readGpr rs).toInt
    let b := (s.readGpr rt).toInt
    let gives := fun (i : Instr) (link : Option Reg) (c : Prop) =>
      (c → ∃ t, exec i s = .next t ∧ Branched s t link (s.pc + 4 + BitVec.ofInt 64 (4 * imm.toInt))) ∧
      (¬ c → ∃ t, exec i s = .next t ∧ Branched s t link (s.pc + 8))
    gives (.beq rs rt imm) none (a = b) ∧ gives (.bne rs rt imm) none (a ≠ b) ∧
    gives (.blez rs imm) none (a ≤ 0) ∧ gives (.bgtz rs imm) none (0 < a) ∧
    gives (.bltz rs imm) none (a < 0) ∧ gives (.bgez rs imm) none (0 ≤ a) ∧
    gives (.bltzal rs imm) (some 31) (a < 0) ∧ gives (.bgezal rs imm) (some 31) (0 ≤ a)

/-- The branch-likely forms nullify the slot when not taken (42_branch_jump.md R270, R279 to R282,
R285, R286, R289, R290; 50_pipeline.md R506, R508, R509). -/
def Obligations.LikelyBranches : Prop :=
  ∀ (s : State) (rs rt : Reg) (imm : BitVec 16),
    let a := (s.readGpr rs).toInt
    let b := (s.readGpr rt).toInt
    let gives := fun (i : Instr) (link : Option Reg) (c : Prop) =>
      (c → ∃ t, exec i s = .next t ∧ Branched s t link (s.pc + 4 + BitVec.ofInt 64 (4 * imm.toInt))) ∧
      (¬ c → ∃ t, exec i s = .next t ∧ Nullified s t link)
    gives (.beql rs rt imm) none (a = b) ∧ gives (.bnel rs rt imm) none (a ≠ b) ∧
    gives (.blezl rs imm) none (a ≤ 0) ∧ gives (.bgtzl rs imm) none (0 < a) ∧
    gives (.bltzl rs imm) none (a < 0) ∧ gives (.bgezl rs imm) none (0 ≤ a) ∧
    gives (.bltzall rs imm) (some 31) (a < 0) ∧ gives (.bgezall rs imm) (some 31) (0 ≤ a)

/-- LB, LBU, LH, LHU, LW, LWU, LD: big-endian, extended, delayed by one instruction
(43_load_store.md R300 to R307; 20_memory.md R130, R142, R145). -/
def Obligations.AlignedLoads : Prop :=
  ∀ (s : State) (rt base : Reg) (imm : BitVec 16) (pa : PAddr) (attr : CacheAttr),
    let ea := s.readGpr base + imm.signExtend 64
    let b := s.busByte false pa
    let gives := fun (i : Instr) (v : Word) =>
      ∃ t, exec i s = .next t ∧ Loaded s t rt v ∧ SameButGpr s t
    s.translate ea .load = .physical pa attr →
      gives (.lb rt base imm) ((b 1 0).signExtend 64) ∧ gives (.lbu rt base imm) ((b 1 0).setWidth 64) ∧
      (ea.toNat % 2 = 0 →
        gives (.lh rt base imm) ((b 2 0 ++ b 2 1).signExtend 64) ∧
        gives (.lhu rt base imm) ((b 2 0 ++ b 2 1).setWidth 64)) ∧
      (ea.toNat % 4 = 0 →
        gives (.lw rt base imm) ((b 4 0 ++ b 4 1 ++ b 4 2 ++ b 4 3).signExtend 64) ∧
        (s.ops64 = true → gives (.lwu rt base imm) ((b 4 0 ++ b 4 1 ++ b 4 2 ++ b 4 3).setWidth 64))) ∧
      (ea.toNat % 8 = 0 → s.ops64 = true →
        gives (.ld rt base imm)
          (b 8 0 ++ b 8 1 ++ b 8 2 ++ b 8 3 ++ b 8 4 ++ b 8 5 ++ b 8 6 ++ b 8 7))

/-- LWL, LWR, LDL, LDR merge the bytes of one bus read into the register, byte by byte
(43_load_store.md R300, R308 to R311; 50_pipeline.md R511). -/
def Obligations.PartialLoads : Prop :=
  ∀ (s : State) (rt base : Reg) (imm : BitVec 16) (pa : PAddr) (attr : CacheAttr),
    let ea := s.readGpr base + imm.signExtend 64
    let old := s.committed rt
    let gives := fun (i : Instr) (v : Word) => ∃ t, exec i s = .next t ∧ Loaded s t rt v ∧ SameButGpr s t
    let bytes := fun (n : Nat) (v : Word) (byte : Nat → Byte) => ∀ k < n, Memory.byteOf v n k = byte k
    s.translate ea .load = .physical pa attr →
      let b := ea.toNat % 4
      let d := ea.toNat % 8
      (∃ w : BitVec 32, gives (.lwl rt base imm) (w.signExtend 64) ∧
        bytes 4 (w.setWidth 64) fun k =>
          if k < 4 - b then s.busByte false pa (4 - b) k else Memory.byteOf old 4 k) ∧
      (∃ w : BitVec 32, gives (.lwr rt base imm) (w.signExtend 64) ∧
        bytes 4 (w.setWidth 64) fun k =>
          if k < 3 - b then Memory.byteOf old 4 k
          else s.busByte false (pa &&& 0xFFFFFFFC) (b + 1) (k - (3 - b))) ∧
      (s.ops64 = true →
        (∃ v : Word, gives (.ldl rt base imm) v ∧
          bytes 8 v fun k => if k < 8 - d then s.busByte false pa (8 - d) k else Memory.byteOf old 8 k) ∧
        (∃ v : Word, gives (.ldr rt base imm) v ∧
          bytes 8 v fun k =>
            if k < 7 - d then Memory.byteOf old 8 k
            else s.busByte false (pa &&& 0xFFFFFFF8) (d + 1) (k - (7 - d))))

/-- SB, SH, SW, SD write the low bytes of the register, the most significant at the lowest address
(43_load_store.md R300, R312 to R315; 20_memory.md R130, R143, R146). That the bytes stored are
in memory afterwards is the model's choice (log 5): R141 lets the bus ignore a write, and the
model performs it exactly where a memory owns the address. -/
def Obligations.AlignedStores : Prop :=
  ∀ (s : State) (rt base : Reg) (imm : BitVec 16) (pa : PAddr) (attr : CacheAttr),
    let ea := s.readGpr base + imm.signExtend 64
    let v := s.readGpr rt
    let gives := fun (i : Instr) (n : Nat) =>
      ∃ t, exec i s = .next t ∧ Advanced s t none ∧ SameButGpr { s with mem := t.mem } t ∧
        StoredBytes s t pa n fun k => v.extractLsb' (8 * (n - 1 - k)) 8
    s.translate ea .store = .physical pa attr →
      gives (.sb rt base imm) 1 ∧ (ea.toNat % 2 = 0 → gives (.sh rt base imm) 2) ∧
      (ea.toNat % 4 = 0 → gives (.sw rt base imm) 4) ∧
      (ea.toNat % 8 = 0 → s.ops64 = true → gives (.sd rt base imm) 8)

/-- SWL, SWR, SDL, SDR write their part of the register and nothing beside it (43_load_store.md
R300, R316 to R319). That the bytes stored are in memory afterwards is the model's choice (log
5): R141 lets the bus ignore a write, and the model performs it exactly where a memory owns the
address. -/
def Obligations.PartialStores : Prop :=
  ∀ (s : State) (rt base : Reg) (imm : BitVec 16) (pa : PAddr) (attr : CacheAttr),
    let ea := s.readGpr base + imm.signExtend 64
    let byte := fun n k => Memory.byteOf (s.readGpr rt) n k
    let b := ea.toNat % 4
    let d := ea.toNat % 8
    let gives := fun (i : Instr) (pa : PAddr) (n : Nat) (b : Nat → Byte) =>
      ∃ t, exec i s = .next t ∧ Advanced s t none ∧ SameButGpr { s with mem := t.mem } t ∧
        StoredBytes s t pa n b
    s.translate ea .store = .physical pa attr →
      gives (.swl rt base imm) pa (4 - b) (byte 4) ∧
      gives (.swr rt base imm) (pa &&& 0xFFFFFFFC) (b + 1) (fun k => byte 4 (3 - b + k)) ∧
      (s.ops64 = true →
        gives (.sdl rt base imm) pa (8 - d) (byte 8) ∧
        gives (.sdr rt base imm) (pa &&& 0xFFFFFFF8) (d + 1) (fun k => byte 8 (7 - d + k)))

/-- A misaligned load or store raises Address-Error; a failing translation raises its fault; nothing
is written (43_load_store.md R300(c); 20_memory.md R131, R132; 60_exceptions.md R543). -/
def Obligations.AccessFaults : Prop :=
  ∀ (s : State) (rt base : Reg) (imm : BitVec 16),
    let ea := s.readGpr base + imm.signExtend 64
    let raises := fun (i : Instr) (kind : FaultKind) =>
      ∃ t, exec i s = .next t ∧ Raised s t kind 0 (some ea)
    let sized := fun (f : Reg → Reg → BitVec 16 → Instr) (n : Nat) (intent : Intent) =>
      (ea.toNat % n ≠ 0 → raises (f rt base imm) (.addressError intent)) ∧
      (ea.toNat % n = 0 → ∀ kind, s.translate ea intent = .raises kind → raises (f rt base imm) kind)
    sized .lh 2 .load ∧ sized .lhu 2 .load ∧ sized .lw 4 .load ∧ sized .ll 4 .load ∧
    sized .sh 2 .store ∧ sized .sw 4 .store ∧ sized .sc 4 .store ∧
    sized .lb 1 .load ∧ sized .lbu 1 .load ∧ sized .sb 1 .store ∧
    sized .lwl 1 .load ∧ sized .lwr 1 .load ∧ sized .swl 1 .store ∧ sized .swr 1 .store ∧
    (s.ops64 = true →
      sized .lwu 4 .load ∧ sized .ld 8 .load ∧ sized .lld 8 .load ∧ sized .sd 8 .store ∧ sized .scd 8 .store ∧
      sized .ldl 1 .load ∧ sized .ldr 1 .load ∧ sized .sdl 1 .store ∧ sized .sdr 1 .store) ∧
    (s.copUsable1 = true →
      sized .lwc1 4 .load ∧ sized .ldc1 8 .load ∧ sized .swc1 4 .store ∧ sized .sdc1 8 .store)

/-- LL, LLD load, set LLbit and record the physical address (43_load_store.md R330, R331;
10_state.md R31, R68). -/
def Obligations.LoadLinked : Prop :=
  ∀ (s : State) (rt base : Reg) (imm : BitVec 16) (pa : PAddr) (attr : CacheAttr),
    let ea := s.readGpr base + imm.signExtend 64
    let b := s.busByte false pa
    let gives := fun (i : Instr) (v : Word) =>
      ∃ t, exec i s = .next t ∧ Loaded s t rt v ∧ t.llbit = true ∧ t.cp0.llAddr.toNat = pa.toNat / 16 ∧
        SameButGpr { s with llbit := t.llbit, cp0 := { s.cp0 with llAddr := t.cp0.llAddr } } t
    s.translate ea .load = .physical pa attr →
      (ea.toNat % 4 = 0 → gives (.ll rt base imm) ((b 4 0 ++ b 4 1 ++ b 4 2 ++ b 4 3).signExtend 64)) ∧
      (ea.toNat % 8 = 0 → s.ops64 = true → gives (.lld rt base imm)
        (b 8 0 ++ b 8 1 ++ b 8 2 ++ b 8 3 ++ b 8 4 ++ b 8 5 ++ b 8 6 ++ b 8 7))

/-- SC, SCD store exactly when LLbit is set, and report it (43_load_store.md R332, R333; 10_state.md
R31; 20_memory.md R152). That the bytes stored are in memory afterwards is the model's choice
(log 5): R141 lets the bus ignore a write, and the model performs it exactly where a memory owns
the address. -/
def Obligations.StoreConditional : Prop :=
  ∀ (s : State) (rt base : Reg) (imm : BitVec 16) (pa : PAddr) (attr : CacheAttr),
    let ea := s.readGpr base + imm.signExtend 64
    let gives := fun (i : Instr) (n : Nat) =>
      ∃ t, exec i s = .next t ∧ Advanced s t (some (rt, if s.llbit then 1 else 0)) ∧
        SameButGpr { s with mem := t.mem } t ∧
        (s.llbit = true → StoredBytes s t pa n fun k => Memory.byteOf (s.readGpr rt) n k) ∧
        (s.llbit = false → t.mem = s.mem)
    s.translate ea .store = .physical pa attr →
      (ea.toNat % 4 = 0 → gives (.sc rt base imm) 4) ∧
      (ea.toNat % 8 = 0 → s.ops64 = true → gives (.scd rt base imm) 8)

/-- SWL and SWR, then LWL and LWR, and their doubleword forms, move a value through any address
whose two ends map (43_load_store.md R334(d); 50_pipeline.md R511(c)). That a memory returns
what was stored is the model's choice (log 5). -/
def Obligations.UnalignedRoundTrip : Prop :=
  ∀ (s : State) (r q base : Reg) (imm : BitVec 16) (pa : PAddr),
    let ea := s.readGpr base + imm.signExtend 64
    let moves := fun (n : Nat) (sl sr ll lr : Reg → Reg → BitVec 16 → Instr) (v : Word) =>
      let last : BitVec 16 := BitVec.ofNat 16 (n - 1)
      imm.toInt + (n - 1 : Nat) < 2 ^ 15 →
      (∀ intent ∈ [Intent.load, Intent.store],
        (∃ attr, s.translate ea intent = .physical pa attr) ∧
        ∃ attr, s.translate (ea + last.setWidth 64) intent = .physical (pa + last.setWidth 32) attr) →
      s.owner pa = .ram → s.owner ((pa + last.setWidth 32) &&& ~~~(last.setWidth 32)) = .ram →
      ∃ t₁ t₂ t₃ t₄,
        exec (sl r base imm) s = .next t₁ ∧ exec (sr r base (imm + last)) t₁ = .next t₂ ∧
        exec (ll q base imm) t₂ = .next t₃ ∧ exec (lr q base (imm + last)) t₃ = .next t₄ ∧
        t₄.ld = (if q = 0 then none else some ⟨q, v⟩) ∧
        StoredBytes s t₄ pa n (fun k => Memory.byteOf (s.readGpr r) n k) ∧
        SameButGpr { s with mem := t₄.mem } t₄ ∧ ∀ k, k ≠ q → t₄.readGpr k = s.committed k
    (∀ l, s.ld = some l → l.reg ≠ r ∧ l.reg ≠ base) →
      moves 4 .swl .swr .lwl .lwr (((s.readGpr r).setWidth 32).signExtend 64) ∧
      (s.ops64 = true → moves 8 .sdl .sdr .ldl .ldr (s.readGpr r))

/-- SYSCALL, BREAK, COP2 raise; the traps raise exactly when their condition holds; SYNC and CACHE
only move on (44_trap_system.md R340 to R356; 48_cop2_reserved.md R480; 60_exceptions.md R547,
R549). -/
def Obligations.SystemAndTraps : Prop :=
  ∀ (s : State) (rs rt base : Reg) (imm : BitVec 16) (code op : Nat),
    let a := s.readGpr rs
    let b := s.readGpr rt
    let c : Word := imm.signExtend 64
    let raises := fun (i : Instr) (kind : FaultKind) => ∃ t, exec i s = .next t ∧ Raised s t kind 0 none
    let passes := fun i : Instr => ∃ t, exec i s = .next t ∧ Advanced s t none ∧ SameButGpr s t
    let traps := fun (i : Instr) (p : Prop) => (p → raises i .trap) ∧ (¬ p → passes i)
    raises (.syscall code) .syscall ∧ raises (.brk code) .breakpoint ∧
    raises (.cop2 code) .reservedInstruction ∧
    passes .sync ∧ (s.copUsable0 = true → passes (.cache op base imm)) ∧
    traps (.tge rs rt code) (b.toInt ≤ a.toInt) ∧ traps (.tgeu rs rt code) (b.toNat ≤ a.toNat) ∧
    traps (.tlt rs rt code) (a.toInt < b.toInt) ∧ traps (.tltu rs rt code) (a.toNat < b.toNat) ∧
    traps (.teq rs rt code) (a = b) ∧ traps (.tne rs rt code) (a ≠ b) ∧
    traps (.tgei rs imm) (c.toInt ≤ a.toInt) ∧ traps (.tgeiu rs imm) (c.toNat ≤ a.toNat) ∧
    traps (.tlti rs imm) (a.toInt < c.toInt) ∧ traps (.tltiu rs imm) (a.toNat < c.toNat) ∧
    traps (.teqi rs imm) (a = c) ∧ traps (.tnei rs imm) (a ≠ c)

/-- MFC0 and DMFC0 read every register number, at once (45_cop0.md R370 to R372; 10_state.md R50 to
R74, R88, R89). That Config.BE reads as last written is log 23. -/
def Obligations.MovesFromCp0 : Prop :=
  ∀ (s : State) (rt : Reg), s.copUsable0 = true →
    let word := fun (n : Reg) (v : BitVec 32) =>
      (∃ t, exec (.mfc0 rt n) s = .next t ∧ WroteGpr s t rt (v.signExtend 64)) ∧
      (s.ops64 = true →
        ∃ t, exec (.dmfc0 rt n) s = .next t ∧ ∃ upper : BitVec 32, WroteGpr s t rt (upper ++ v))
    let double := fun (n : Reg) (v : Word) =>
      (∃ t, exec (.mfc0 rt n) s = .next t ∧ WroteGpr s t rt ((v.setWidth 32).signExtend 64)) ∧
      (s.ops64 = true → ∃ t, exec (.dmfc0 rt n) s = .next t ∧ WroteGpr s t rt v)
    let line := BitVec.ofBool
    word 0 s.cp0.index ∧ word 1 s.cp0.random ∧ double 2 s.cp0.entryLo0 ∧ double 3 s.cp0.entryLo1 ∧
    double 4 s.cp0.context ∧ word 5 s.cp0.pageMask ∧ word 6 s.cp0.wired ∧ double 8 s.cp0.badVAddr ∧
    word 9 s.cp0.count ∧ double 10 s.cp0.entryHi ∧ word 11 s.cp0.compare ∧ word 12 s.cp0.status ∧
    word 13 (s.cp0.cause.extractLsb' 16 16 ++ line (s.irq.irq7 || s.timerIp) ++ line s.irq.irq6 ++
      line s.irq.irq5 ++ line s.irq.irq4 ++ line s.irq.irq3 ++ line s.irq.irq2 ++
      s.cp0.cause.extractLsb' 0 10) ∧
    double 14 s.cp0.epc ∧ word 15 (0#16 ++ Config.pridLow) ∧ word 16 s.cp0.config ∧
    word 17 s.cp0.llAddr ∧ word 18 s.cp0.watchLo ∧ word 19 s.cp0.watchHi ∧ double 20 s.cp0.xContext ∧
    word 26 s.cp0.parityError ∧ word 27 0 ∧ word 28 s.cp0.tagLo ∧ word 29 0 ∧ double 30 s.cp0.errorEpc ∧
    ∀ n ∈ [7#5, 21#5, 22#5, 23#5, 24#5, 25#5, 31#5],
      (∃ t v, exec (.mfc0 rt n) s = .next t ∧ WroteGpr s t rt v) ∧
      (s.ops64 = true → ∃ t v, exec (.dmfc0 rt n) s = .next t ∧ WroteGpr s t rt v)

/-- MTC0 and DMTC0 write the writable bits of every register number, with its side effect and no
other (45_cop0.md R370, R373, R374; 10_state.md R51 to R76). That a write reaches Config.BE is
log 23. -/
def Obligations.MovesToCp0 : Prop :=
  ∀ (s : State) (rt : Reg), s.copUsable0 = true →
    let put := fun (n : Reg) (after : Word → Cp0) =>
      let ok := fun (i : Instr) (v : Word) =>
        ∃ t, exec i s = .next t ∧ Advanced s t none ∧ t.cp0 = after v ∧
          t.timerIp = (if n = 11 then false else s.timerIp) ∧
          SameButGpr { s with cp0 := t.cp0, timerIp := t.timerIp } t
      ok (.mtc0 rt n) (((s.readGpr rt).setWidth 32).signExtend 64) ∧
        (s.ops64 = true → ok (.dmtc0 rt n) (s.readGpr rt))
    let w := fun (old mask : BitVec 32) (v : Word) => (old &&& ~~~mask) ||| (v.setWidth 32 &&& mask)
    let d := fun (old mask v : Word) => (old &&& ~~~mask) ||| (v &&& mask)
    let c := s.cp0
    put 0 (fun v => { c with index := w c.index 0x8000003F v }) ∧
    put 2 (fun v => { c with entryLo0 := d c.entryLo0 0x03FFFFFF v }) ∧
    put 3 (fun v => { c with entryLo1 := d c.entryLo1 0x03FFFFFF v }) ∧
    put 4 (fun v => { c with context := d c.context 0xFFFFFFFFFF800000 v }) ∧
    put 5 (fun v => { c with pageMask := w c.pageMask 0x01FFE000 v }) ∧
    put 6 (fun v => { c with wired := w c.wired 0x3F v, random := 31 }) ∧
    put 9 (fun v => { c with count := v.setWidth 32 }) ∧
    put 10 (fun v => { c with entryHi := d c.entryHi 0xC00000FFFFFFE0FF v }) ∧
    put 11 (fun v => { c with compare := v.setWidth 32 }) ∧
    put 12 (fun v => { c with status := w c.status 0xFF57FFFF v }) ∧
    put 13 (fun v => { c with cause := w c.cause 0x00000300 v }) ∧
    put 14 (fun v => { c with epc := v }) ∧
    put 16 (fun v => { c with config := w c.config 0x0F00800F v }) ∧
    put 17 (fun v => { c with llAddr := v.setWidth 32 }) ∧
    put 18 (fun v => { c with watchLo := w c.watchLo 0xFFFFFFFB v }) ∧
    put 19 (fun v => { c with watchHi := w c.watchHi 0xF v }) ∧
    put 20 (fun v => { c with xContext := d c.xContext 0xFFFFFFFE00000000 v }) ∧
    put 26 (fun v => { c with parityError := w c.parityError 0xFF v }) ∧
    put 28 (fun v => { c with tagLo := w c.tagLo 0x0FFFFFC0 v }) ∧
    put 30 (fun v => { c with errorEpc := v }) ∧
    ∀ n ∈ [1#5, 7#5, 8#5, 15#5, 21#5, 22#5, 23#5, 24#5, 25#5, 27#5, 29#5, 31#5], put n (fun _ => c)

/-- TLBR, TLBWI, TLBWR move one entry; a wired entry is never replaced (45_cop0.md R375 to R377;
10_state.md R52, R53, R55, R58, R82, R83). -/
def Obligations.TlbReadWrite : Prop :=
  ∀ s : State, s.copUsable0 = true →
    let atIndex := s.cp0.index.extractLsb' 0 5
    let atRandom := s.cp0.random.extractLsb' 0 5
    let c := s.cp0
    (let e := s.tlbEntry atIndex
      let lo := fun (pfn : BitVec 20) (attr : BitVec 3) (d v : Bool) =>
        (0#38 ++ pfn ++ attr ++ BitVec.ofBool d ++ BitVec.ofBool v ++ BitVec.ofBool e.global : Word)
      ∃ t, exec .tlbr s = .next t ∧ Advanced s t none ∧ SameButGpr { s with cp0 := t.cp0 } t ∧
        t.cp0 = { c with
          pageMask := 0#7 ++ e.mask ++ 0#13
          entryHi  := e.region ++ 0#22 ++ e.vpn2 ++ 0#5 ++ e.asid
          entryLo0 := lo e.pfn0 e.c0 e.d0 e.v0
          entryLo1 := lo e.pfn1 e.c1 e.d1 e.v1 }) ∧
    (∀ x ∈ [(Instr.tlbwi, atIndex), (Instr.tlbwr, atRandom)],
      ∃ t, exec x.1 s = .next t ∧ Advanced s t none ∧ SameButGpr { s with tlb := t.tlb } t ∧
        (∀ j, j ≠ x.2 → t.tlbEntry j = s.tlbEntry j) ∧
        let e := t.tlbEntry x.2
        e.mask = c.pageMask.extractLsb' 13 12 ∧ e.region = c.entryHi.extractLsb' 62 2 ∧
        (∀ k < 27, e.vpn2.getLsbD k = (c.entryHi.getLsbD (13 + k) && !e.mask.getLsbD k)) ∧
        e.asid = c.entryHi.extractLsb' 0 8 ∧ e.global = (c.entryLo0.getLsbD 0 && c.entryLo1.getLsbD 0) ∧
        e.pfn0 = c.entryLo0.extractLsb' 6 20 ∧ e.c0 = c.entryLo0.extractLsb' 3 3 ∧
        e.d0 = c.entryLo0.getLsbD 2 ∧ e.v0 = c.entryLo0.getLsbD 1 ∧
        e.pfn1 = c.entryLo1.extractLsb' 6 20 ∧ e.c1 = c.entryLo1.extractLsb' 3 3 ∧
        e.d1 = c.entryLo1.getLsbD 2 ∧ e.v1 = c.entryLo1.getLsbD 1) ∧
    (s.Inv → c.wired.toNat ≤ 31 → c.wired.toNat ≤ atRandom.toNat)

/-- TLBP finds the one entry that covers EntryHi, or sets P; two entries stop the machine
(45_cop0.md R378; 20_memory.md R121, R124). -/
def Obligations.TlbProbe : Prop :=
  ∀ s : State, s.copUsable0 = true →
    let covers := fun i : BitVec 5 =>
      (s.tlbEntry i).Covers (s.cp0.entryHi.extractLsb' 0 8) s.cp0.entryHi
    let gives := fun p : BitVec 32 → Prop =>
      ∃ t, exec .tlbp s = .next t ∧ Advanced s t none ∧ p t.cp0.index ∧
        SameButGpr { s with cp0 := { s.cp0 with index := t.cp0.index } } t
    ((∀ i, ¬ covers i) → gives fun x => x.getLsbD 31 = true ∧ x.extractLsb' 6 25 = 0) ∧
    (∀ i, covers i → (∀ j, covers j → j = i) → gives fun x => x = i.setWidth 32) ∧
    (∀ i j, covers i → covers j → i ≠ j → exec .tlbp s = .fault .tlbMultipleMatch)

/-- What a virtual address translates to, in every mode (20_memory.md R101, R103, R104, R120 to
R124; 10_state.md R80). -/
def Obligations.Translation : Prop :=
  ∀ (s : State) (va : Word) (intent : Intent),
    let range := -2 ^ 31 ≤ va.toInt ∧ va.toInt < 2 ^ 31
    let w := (va.extractLsb' 29 3).toNat
    let kernel := s.cp0.status.getLsbD 1 = true ∨ s.cp0.status.getLsbD 2 = true ∨
      s.cp0.status.extractLsb' 3 2 = 0
    let supervisor := ¬ kernel ∧ s.cp0.status.extractLsb' 3 2 = 1
    let mapped := range ∧ (w ≤ 3 ∨ (w = 6 ∧ (kernel ∨ supervisor)) ∨ (w = 7 ∧ kernel))
    let covers := fun i : BitVec 5 => (s.tlbEntry i).Covers (s.cp0.entryHi.extractLsb' 0 8) va
    let r := s.translate va intent
    (¬ range → r = .raises (.addressError intent)) ∧
    (range → ¬ kernel → w = 4 ∨ w = 5 ∨ w = 7 ∨ (w = 6 ∧ ¬ supervisor) →
      r = .raises (.addressError intent)) ∧
    (range → kernel → w = 4 → r = .physical (0#3 ++ va.extractLsb' 0 29) .cached) ∧
    (range → kernel → w = 5 → r = .physical (0#3 ++ va.extractLsb' 0 29) .uncached) ∧
    (mapped → (∀ i, ¬ covers i) → r = .raises (.tlbMiss intent)) ∧
    (mapped → ∀ i j, covers i → covers j → i ≠ j → r = .multipleMatch) ∧
    (mapped → ∀ i, covers i → (∀ j, covers j → j = i) →
      let e := s.tlbEntry i
      let off : BitVec 32 := (e.mask.setWidth 32 <<< 12) ||| 0xFFF
      let odd := va.extractLsb' 0 32 &&& (off + 1) ≠ 0
      let half := fun (pfn : BitVec 20) (c : BitVec 3) (d v : Bool) =>
        (v = false → r = .raises (.tlbInvalid intent)) ∧
        (v = true → d = false → intent = .store → r = .raises .tlbModified) ∧
        (v = true → (d = true ∨ intent ≠ .store) →
          ∃ pa, r = .physical pa (if c = 2 then .uncached else .cached) ∧
            ∀ k < 32, pa.getLsbD k =
              if k < 12 ∨ e.mask.getLsbD (k - 12) then va.getLsbD k else pfn.getLsbD (k - 12))
      (odd → half e.pfn1 e.c1 e.d1 e.v1) ∧ (¬ odd → half e.pfn0 e.c0 e.d0 e.v0))

/-- ERET returns to ErrorEPC or EPC, clears ERL or EXL, and LLbit (45_cop0.md R370, R379;
60_exceptions.md R560; 10_state.md R31, R80). -/
def Obligations.ExceptionReturn : Prop :=
  ∀ s : State, s.copUsable0 = true →
    let gives := fun (target : Word) (bit : Nat) (p : State → Prop) =>
      ∃ t, exec .eret s = .next t ∧ (∀ r, t.readGpr r = s.committed r) ∧ t.pc = target ∧
        t.br = none ∧ t.ld = none ∧ t.llbit = false ∧
        (∀ k < 32, t.cp0.status.getLsbD k = (decide (k ≠ bit) && s.cp0.status.getLsbD k)) ∧
        SameButGpr { s with llbit := false, cp0 := { s.cp0 with status := t.cp0.status } } t ∧ p t
    let ksu := s.cp0.status.extractLsb' 3 2
    (s.cp0.status.getLsbD 2 = true → gives s.cp0.errorEpc 2 fun _ => True) ∧
    (s.cp0.status.getLsbD 2 = false → gives s.cp0.epc 1 fun t =>
      t.mode = if ksu = 0 then .kernel else if ksu = 1 then .supervisor
        else if ksu = 2 then .user else .undefined)

/-- LWC1, LDC1, SWC1, SDC1, in both register modes (46_cop1_move_branch.md R400 to R404; 10_state.md
R41, R42; 20_memory.md R142, R143). That the bytes stored are in memory afterwards is the
model's choice (log 5): R141 lets the bus ignore a write, and the model performs it exactly
where a memory owns the address. -/
def Obligations.Cop1LoadsStores : Prop :=
  ∀ (s : State) (ft base : Reg) (imm : BitVec 16) (pa : PAddr) (attr : CacheAttr), s.copUsable1 = true →
    let ea := s.readGpr base + imm.signExtend 64
    let b := s.busByte false pa
    let stores := fun (i : Instr) (n : Nat) (v : Nat → Byte) =>
      ∃ t, exec i s = .next t ∧ Advanced s t none ∧ SameButGpr { s with mem := t.mem } t ∧
        StoredBytes s t pa n v
    let half := s.fprSlot ft
    let double := if s.cp0.status.getLsbD 26 then ft else ft &&& 0x1E
    (s.translate ea .load = .physical pa attr →
      (ea.toNat % 4 = 0 → ∃ t, exec (.lwc1 ft base imm) s = .next t ∧
        WroteHalf s t ft (b 4 0 ++ b 4 1 ++ b 4 2 ++ b 4 3)) ∧
      (ea.toNat % 8 = 0 → ∃ t, exec (.ldc1 ft base imm) s = .next t ∧
        WroteFpr s t ft (b 8 0 ++ b 8 1 ++ b 8 2 ++ b 8 3 ++ b 8 4 ++ b 8 5 ++ b 8 6 ++ b 8 7))) ∧
    (s.translate ea .store = .physical pa attr →
      (ea.toNat % 4 = 0 → stores (.swc1 ft base imm) 4 fun k =>
        (s.readFpr half.1).extractLsb' (half.2 + 8 * (3 - k)) 8) ∧
      (ea.toNat % 8 = 0 → stores (.sdc1 ft base imm) 8 fun k =>
        (s.readFpr double).extractLsb' (8 * (7 - k)) 8))

/-- MFC1, DMFC1, MTC1, DMTC1, CFC1, CTC1 (46_cop1_move_branch.md R400, R405 to R410; 10_state.md R41
to R46). -/
def Obligations.Cop1Moves : Prop :=
  ∀ (s : State) (rt fs : Reg), s.copUsable1 = true →
    let half := s.fprSlot fs
    let double := if s.cp0.status.getLsbD 26 then fs else fs &&& 0x1E
    let gets := fun (i : Instr) (v : Word) => ∃ t, exec i s = .next t ∧ WroteGpr s t rt v
    let v := (s.readGpr rt).setWidth 32 &&& 0x0183FFFF#32
    let traps := v.getLsbD 17 = true ∨ ∃ k < 5, v.getLsbD (12 + k) = true ∧ v.getLsbD (7 + k) = true
    s.fprIndex fs = double ∧
    gets (.mfc1 rt fs) (((s.readFpr half.1).extractLsb' half.2 32).signExtend 64) ∧
    (s.ops64 = true → gets (.dmfc1 rt fs) (s.readFpr double)) ∧
    (∃ t, exec (.mtc1 rt fs) s = .next t ∧ WroteHalf s t fs ((s.readGpr rt).setWidth 32)) ∧
    (s.ops64 = true → ∃ t, exec (.dmtc1 rt fs) s = .next t ∧ WroteFpr s t fs (s.readGpr rt)) ∧
    (fs = 0 → gets (.cfc1 rt fs) ((0#16 ++ Config.fcr0Low).signExtend 64)) ∧
    (fs = 31 → gets (.cfc1 rt fs) (s.fcr31.signExtend 64)) ∧
    (fs ≠ 0 → fs ≠ 31 → ∃ w : BitVec 32, gets (.cfc1 rt fs) (w.signExtend 64)) ∧
    (fs = 31 → ¬ traps → ∃ t, exec (.ctc1 rt fs) s = .next t ∧ Advanced s t none ∧
      SameButGpr { s with fcr31 := v } t) ∧
    (fs = 31 → traps → ∃ t, exec (.ctc1 rt fs) s = .next t ∧
      Raised { s with fcr31 := v } t .floatingPoint 0 none) ∧
    (fs ≠ 31 → ∃ t, exec (.ctc1 rt fs) s = .next t ∧ Advanced s t none ∧ SameButGpr s t)

/-- BC1F, BC1T, BC1FL, BC1TL branch on the condition bit of FCR31 (46_cop1_move_branch.md R400, R411
to R414; 50_pipeline.md R506, R508, R509). -/
def Obligations.Cop1Branches : Prop :=
  ∀ (s : State) (imm : BitVec 16), s.copUsable1 = true →
    let c := s.fcr31.getLsbD 23
    let gives := fun (i : Instr) (taken : Bool) (not : State → Prop) =>
      (taken = true →
        ∃ t, exec i s = .next t ∧ Branched s t none (s.pc + 4 + BitVec.ofInt 64 (4 * imm.toInt))) ∧
      (taken = false → ∃ t, exec i s = .next t ∧ not t)
    gives (.bc1f imm) (!c) (fun t => Branched s t none (s.pc + 8)) ∧
    gives (.bc1t imm) c (fun t => Branched s t none (s.pc + 8)) ∧
    gives (.bc1fl imm) (!c) (fun t => Nullified s t none) ∧
    gives (.bc1tl imm) c (fun t => Nullified s t none)

/-- Every floating-point arithmetic and conversion instruction: result, exceptions, or FloatingPoint
(47_cop1_arith.md R430 to R436, R440 to R459; 10_state.md R41, R42, R45, R46). Which unit the
machine has, and that a free one keeps to R436, is log 8; the register that an odd number names
with FR 0 is log 18. -/
def Obligations.FpWrapper : Prop :=
  ∀ (st : State) (fd fs ft : Reg), st.copUsable1 = true →
    let enable := st.fcr31.extractLsb' 7 5
    let flush := st.fcr31.getLsbD 24
    let mode := st.fcr31.extractLsb' 0 2
    let env : FpEnv := ⟨if mode = 0 then .nearest else if mode = 1 then .towardZero
      else if mode = 2 then .up else .down, flush, enable, st.draws⟩
    let cleared := fcr31With st.fcr31 false 0 0
    let w := fun i : Reg =>
      (((st.readFpr (st.fprSlot i).1).extractLsb' (st.fprSlot i).2 32).setWidth 64 : Word)
    let d := fun i : Reg => st.readFpr (if st.cp0.status.getLsbD 26 then i else i &&& 0x1E)
    let free := fun (fmt : BitVec 5) (funct : BitVec 6) (a b : Word) =>
      if Config.fpUnimplemented fmt funct a b cleared then FpResult.unimplemented
      else .value (Config.fpResult fmt funct a b mode flush).1 (Config.fpResult fmt funct a b mode flush).2
    let num := fun (f : FpFormat) (v : Word) => fpClass f v = .zero ∨ fpClass f v = .normal
    let acts := fun (i : Instr) (wide : Bool) (r : FpResult) =>
      (∀ v x, r = .value v x → x &&& enable = 0 →
        ∃ t, exec i st = .next t ∧ FpWrote st t wide fd v x) ∧
      (∀ v x, r = .value v x → x &&& enable ≠ 0 →
        ∃ t, exec i st = .next t ∧ FpRaised st t false x) ∧
      (r = .unimplemented → ∃ t, exec i st = .next t ∧ FpRaised st t true 0)
    let runs := fun (i : Instr) (wide : Bool) (fmt : BitVec 5) (funct : BitVec 6) (ordinary : Prop)
        (a b : Word) (r : FpResult) =>
      let exact := ordinary ∧ ∃ v, r = .value v 0
      (st.fpu = .standard ∨ exact → acts i wide r) ∧
      (st.fpu = .free → ¬ exact → acts i wide (free fmt funct a b))
    st.fprIndex fd = (if st.cp0.status.getLsbD 26 then fd else fd &&& 0x1E) ∧
    runs (.addS fd fs ft) false 0x10 0x00 (num .single (w fs) ∧ num .single (w ft)) (w fs) (w ft)
      (fpAdd .single env (w fs) (w ft)) ∧
    runs (.addD fd fs ft) true 0x11 0x00 (num .double (d fs) ∧ num .double (d ft)) (d fs) (d ft)
      (fpAdd .double env (d fs) (d ft)) ∧
    runs (.subS fd fs ft) false 0x10 0x01 (num .single (w fs) ∧ num .single (w ft)) (w fs) (w ft)
      (fpSub .single env (w fs) (w ft)) ∧
    runs (.subD fd fs ft) true 0x11 0x01 (num .double (d fs) ∧ num .double (d ft)) (d fs) (d ft)
      (fpSub .double env (d fs) (d ft)) ∧
    runs (.mulS fd fs ft) false 0x10 0x02 (num .single (w fs) ∧ num .single (w ft)) (w fs) (w ft)
      (fpMul .single env (w fs) (w ft)) ∧
    runs (.mulD fd fs ft) true 0x11 0x02 (num .double (d fs) ∧ num .double (d ft)) (d fs) (d ft)
      (fpMul .double env (d fs) (d ft)) ∧
    runs (.divS fd fs ft) false 0x10 0x03 (num .single (w fs) ∧ num .single (w ft)) (w fs) (w ft)
      (fpDiv .single env (w fs) (w ft)) ∧
    runs (.divD fd fs ft) true 0x11 0x03 (num .double (d fs) ∧ num .double (d ft)) (d fs) (d ft)
      (fpDiv .double env (d fs) (d ft)) ∧
    runs (.sqrtS fd fs) false 0x10 0x04 (num .single (w fs)) (w fs) 0
      (fpSqrt .single env (w fs)) ∧
    runs (.sqrtD fd fs) true 0x11 0x04 (num .double (d fs)) (d fs) 0
      (fpSqrt .double env (d fs)) ∧
    runs (.absS fd fs) false 0x10 0x05 (num .single (w fs)) (w fs) 0
      (fpAbs .single env (w fs)) ∧
    runs (.absD fd fs) true 0x11 0x05 (num .double (d fs)) (d fs) 0
      (fpAbs .double env (d fs)) ∧
    runs (.negS fd fs) false 0x10 0x07 (num .single (w fs)) (w fs) 0
      (fpNeg .single env (w fs)) ∧
    runs (.negD fd fs) true 0x11 0x07 (num .double (d fs)) (d fs) 0
      (fpNeg .double env (d fs)) ∧
    runs (.roundLS fd fs) true 0x10 0x08 (num .single (w fs)) (w fs) 0
      (fpToLong .single .nearest (w fs)) ∧
    runs (.roundLD fd fs) true 0x11 0x08 (num .double (d fs)) (d fs) 0
      (fpToLong .double .nearest (d fs)) ∧
    runs (.roundWS fd fs) false 0x10 0x0C (num .single (w fs)) (w fs) 0
      (fpToWord .single .nearest (w fs)) ∧
    runs (.roundWD fd fs) false 0x11 0x0C (num .double (d fs)) (d fs) 0
      (fpToWord .double .nearest (d fs)) ∧
    runs (.truncLS fd fs) true 0x10 0x09 (num .single (w fs)) (w fs) 0
      (fpToLong .single .towardZero (w fs)) ∧
    runs (.truncLD fd fs) true 0x11 0x09 (num .double (d fs)) (d fs) 0
      (fpToLong .double .towardZero (d fs)) ∧
    runs (.truncWS fd fs) false 0x10 0x0D (num .single (w fs)) (w fs) 0
      (fpToWord .single .towardZero (w fs)) ∧
    runs (.truncWD fd fs) false 0x11 0x0D (num .double (d fs)) (d fs) 0
      (fpToWord .double .towardZero (d fs)) ∧
    runs (.ceilLS fd fs) true 0x10 0x0A (num .single (w fs)) (w fs) 0
      (fpToLong .single .up (w fs)) ∧
    runs (.ceilLD fd fs) true 0x11 0x0A (num .double (d fs)) (d fs) 0
      (fpToLong .double .up (d fs)) ∧
    runs (.ceilWS fd fs) false 0x10 0x0E (num .single (w fs)) (w fs) 0
      (fpToWord .single .up (w fs)) ∧
    runs (.ceilWD fd fs) false 0x11 0x0E (num .double (d fs)) (d fs) 0
      (fpToWord .double .up (d fs)) ∧
    runs (.floorLS fd fs) true 0x10 0x0B (num .single (w fs)) (w fs) 0
      (fpToLong .single .down (w fs)) ∧
    runs (.floorLD fd fs) true 0x11 0x0B (num .double (d fs)) (d fs) 0
      (fpToLong .double .down (d fs)) ∧
    runs (.floorWS fd fs) false 0x10 0x0F (num .single (w fs)) (w fs) 0
      (fpToWord .single .down (w fs)) ∧
    runs (.floorWD fd fs) false 0x11 0x0F (num .double (d fs)) (d fs) 0
      (fpToWord .double .down (d fs)) ∧
    runs (.cvtLS fd fs) true 0x10 0x25 (num .single (w fs)) (w fs) 0
      (fpToLong .single env.rm (w fs)) ∧
    runs (.cvtLD fd fs) true 0x11 0x25 (num .double (d fs)) (d fs) 0
      (fpToLong .double env.rm (d fs)) ∧
    runs (.cvtWS fd fs) false 0x10 0x24 (num .single (w fs)) (w fs) 0
      (fpToWord .single env.rm (w fs)) ∧
    runs (.cvtWD fd fs) false 0x11 0x24 (num .double (d fs)) (d fs) 0
      (fpToWord .double env.rm (d fs)) ∧
    runs (.cvtSD fd fs) false 0x11 0x20 (num .double (d fs)) (d fs) 0
      (fpConvert .double .single env (d fs)) ∧
    runs (.cvtDS fd fs) true 0x10 0x21 (num .single (w fs)) (w fs) 0
      (fpConvert .single .double env (w fs)) ∧
    runs (.cvtSW fd fs) false 0x14 0x20 (True) (w fs) 0
      (fpOfWord .single env (w fs)) ∧
    runs (.cvtDW fd fs) true 0x14 0x21 (True) (w fs) 0
      (fpOfWord .double env (w fs)) ∧
    runs (.cvtSL fd fs) false 0x15 0x20 (True) (d fs) 0
      (fpOfLong .single env (d fs)) ∧
    runs (.cvtDL fd fs) true 0x15 0x21 (True) (d fs) 0
      (fpOfLong .double env (d fs)) ∧
    (∃ t, exec (.movS fd fs) st = .next t ∧ FpWrote st t false fd (w fs) 0) ∧
    (∃ t, exec (.movD fd fs) st = .next t ∧ FpWrote st t true fd (d fs) 0)

/-- The 32 floating-point compares (47_cop1_arith.md R430 to R432, R460; 10_state.md R41, R42, R45).
That compares act alike with both units is log 8 (DEDUCED: R460 gives its own pseudocode and no
parameter); the doubleword register that an odd number names with FR 0 is R42's own choice, log
18. -/
def Obligations.FpCompare : Prop :=
  ∀ (s : State) (fs ft : Reg), s.copUsable1 = true →
    let w := fun i : Reg =>
      (((s.readFpr (s.fprSlot i).1).extractLsb' (s.fprSlot i).2 32).setWidth 64 : Word)
    let d := fun i : Reg => s.readFpr (if s.cp0.status.getLsbD 26 then i else i &&& 0x1E)
    let one := fun (f : FpFormat) (cond : BitVec 4) (a b : Word) (i : Instr) =>
      let signalling := fpClass f a = .signallingNan ∨ fpClass f b = .signallingNan
      let unordered := fpClass f a = .quietNan ∨ fpClass f b = .quietNan ∨ signalling
      let invalid := unordered ∧ (cond.getLsbD 3 = true ∨ signalling)
      let holds := (cond.getLsbD 2 = true ∧ ¬ unordered ∧ fpBefore f a b) ∨
        (cond.getLsbD 1 = true ∧ ¬ unordered ∧ fpSame f a b) ∨ (cond.getLsbD 0 = true ∧ unordered)
      let completes := fun x : FpExceptions =>
        ∃ t, exec i s = .next t ∧ Advanced s t none ∧ SameButGpr { s with fcr31 := t.fcr31 } t ∧
          (t.fcr31.getLsbD 23 = true ↔ holds) ∧
          ∀ k < 32, k ≠ 23 → t.fcr31.getLsbD k = (fcr31With s.fcr31 false x x).getLsbD k
      (¬ invalid → completes 0) ∧
      (invalid → s.fcr31.getLsbD 11 = false → completes 0x10) ∧
      (invalid → s.fcr31.getLsbD 11 = true → ∃ t, exec i s = .next t ∧ FpRaised s t false 0x10)
    let compares := fun (cond : BitVec 4) (single double : Reg → Reg → Instr) =>
      one .single cond (w fs) (w ft) (single fs ft) ∧ one .double cond (d fs) (d ft) (double fs ft)
    compares 0x0 .cFS .cFD ∧
    compares 0x1 .cUnS .cUnD ∧
    compares 0x2 .cEqS .cEqD ∧
    compares 0x3 .cUeqS .cUeqD ∧
    compares 0x4 .cOltS .cOltD ∧
    compares 0x5 .cUltS .cUltD ∧
    compares 0x6 .cOleS .cOleD ∧
    compares 0x7 .cUleS .cUleD ∧
    compares 0x8 .cSfS .cSfD ∧
    compares 0x9 .cNgleS .cNgleD ∧
    compares 0xA .cSeqS .cSeqD ∧
    compares 0xB .cNglS .cNglD ∧
    compares 0xC .cLtS .cLtD ∧
    compares 0xD .cNgeS .cNgeD ∧
    compares 0xE .cLeS .cLeD ∧
    compares 0xF .cNgtS .cNgtD

/-- The exact subset: an exactly representable result is the result, with no exception, in every
mode (47_cop1_arith.md R431, R435, R436, R440 to R459). By R436 this holds of every unit;
FpWrapper says that the instructions act by it with either unit (log 8). -/
def Obligations.FpExact : Prop :=
  ∀ (f : FpFormat) (env : FpEnv) (a b : Word),
    let ordinary := fun (f : FpFormat) (v : Word) => fpClass f v = .zero ∨ fpClass f v = .normal
    let num := fpNumber f
    let zero := fun neg : Bool => fpPack f neg 0 0
    let is := fun (r : FpResult) (q : ℝ) => ∀ c : Word, (f = .single → c.toNat < 2 ^ 32) →
      fpClass f c = .normal → num c = q → r = .value c 0
    let product := fpSign f a ^^ fpSign f b
    (ordinary f a → ordinary f b →
      is (fpAdd f env a b) (num a + num b) ∧ is (fpSub f env a b) (num a - num b) ∧
      is (fpMul f env a b) (num a * num b) ∧
      (num a + num b = 0 → fpAdd f env a b = .value (zero
        (if fpSign f a = fpSign f b then fpSign f a else decide (env.rm = .down))) 0) ∧
      (num a - num b = 0 → fpSub f env a b = .value (zero
        (if fpSign f a ≠ fpSign f b then fpSign f a else decide (env.rm = .down))) 0) ∧
      (num a * num b = 0 → fpMul f env a b = .value (zero product) 0) ∧
      (num b ≠ 0 → is (fpDiv f env a b) (num a / num b) ∧
        (num a = 0 → fpDiv f env a b = .value (zero product) 0))) ∧
    (ordinary f a →
      (∀ c : Word, (f = .single → c.toNat < 2 ^ 32) → fpClass f c = .normal → fpSign f c = false →
        num c * num c = num a → fpSqrt f env a = .value c 0) ∧
      (num a = 0 → fpSqrt f env a = .value (zero (fpSign f a)) 0) ∧
      (∀ rm (n : ℤ), num a = n →
        (-2 ^ 31 ≤ n → n < 2 ^ 31 → fpToWord f rm a = .value (BitVec.ofInt 64 n) 0) ∧
        (-2 ^ 53 ≤ n → n ≤ 2 ^ 53 → fpToLong f rm a = .value (BitVec.ofInt 64 n) 0)) ∧
      (∃ v, fpAbs f env a = .value v 0 ∧ num v = |num a| ∧ fpSign f v = false) ∧
      (∃ v, fpNeg f env a = .value v 0 ∧ num v = -num a ∧ fpSign f v = !fpSign f a)) ∧
    (∀ g, ordinary g a → is (fpConvert g f env a) (fpNumber g a) ∧
      (fpNumber g a = 0 → fpConvert g f env a = .value (zero (fpSign g a)) 0)) ∧
    is (fpOfWord f env a) ((a.setWidth 32).toInt : ℝ) ∧
    (a.setWidth 32 = 0 → fpOfWord f env a = .value (zero false) 0) ∧
    (-2 ^ 55 ≤ a.toInt → a.toInt < 2 ^ 55 → is (fpOfLong f env a) (a.toInt : ℝ) ∧
      (a = 0 → fpOfLong f env a = .value (zero false) 0))

/-- ADD, SUB, MUL, DIV, SQRT and the conversions of numbers: the exact result rounded once, tiny,
overflowing, or out of range (47_cop1_arith.md R433 to R435, R440 to R444, R448 to R459). It
says what the standard unit answers, the defaults the spec gives for the open FpResult and
FpUnimplemented (log 8, the model's choice); a result tiny before rounding only is log 11. -/
def Obligations.FpRounding : Prop :=
  ∀ (f g : FpFormat) (env : FpEnv) (rm : RoundMode) (a b : Word),
    let ordinary := fun (f : FpFormat) (v : Word) => fpClass f v = .zero ∨ fpClass f v = .normal
    let num := fpNumber f
    let rounds := fun (q : ℝ) (r : FpResult) => q ≠ 0 → ∃ neg n, FpOutcome f env q neg n r
    let fixed := fun (lo hi : ℤ) (r : FpResult) => ∃ n : ℤ, FpRoundsInt rm (num a) n ∧
      (lo ≤ n → n ≤ hi → r = .value (BitVec.ofInt 64 n) (if (n : ℝ) = num a then 0 else 1)) ∧
      (n < lo ∨ hi < n → r = .unimplemented)
    (ordinary f a → ordinary f b →
      rounds (num a + num b) (fpAdd f env a b) ∧ rounds (num a - num b) (fpSub f env a b) ∧
      rounds (num a * num b) (fpMul f env a b) ∧
      (num b ≠ 0 → rounds (num a / num b) (fpDiv f env a b))) ∧
    (ordinary f a →
      (0 ≤ num a → rounds (Real.sqrt (num a)) (fpSqrt f env a)) ∧
      fixed (-2 ^ 31) (2 ^ 31 - 1) (fpToWord f rm a) ∧ fixed (-2 ^ 53) (2 ^ 53) (fpToLong f rm a)) ∧
    (ordinary g a → rounds (fpNumber g a) (fpConvert g f env a)) ∧
    rounds ((a.setWidth 32).toInt : ℝ) (fpOfWord f env a) ∧
    (-2 ^ 55 ≤ a.toInt → a.toInt < 2 ^ 55 → rounds (a.toInt : ℝ) (fpOfLong f env a))

/-- Special operands: denormals, NaNs, infinities, division by zero, and conversions that software
must do (47_cop1_arith.md R431, R433 to R435, R440 to R459). It says what the standard unit
answers (log 8, the model's choice); that a denormal operand is looked at before a NaN is log
21; the payload of a quiet NaN is log 9. -/
def Obligations.FpSpecial : Prop :=
  ∀ (f g : FpFormat) (env : FpEnv) (rm : RoundMode) (a b : Word),
    let c := fpClass f
    let finite := fun v : Word => c v = .zero ∨ c v = .normal
    let anyNan := fun (f : FpFormat) (v : Word) => fpClass f v = .quietNan ∨ fpClass f v = .signallingNan
    let zero := fun neg : Bool => FpResult.value (fpPack f neg 0 0) 0
    let inf := fun (neg : Bool) (x : FpExceptions) => FpResult.value (fpPack f neg f.emax 0) x
    let invalid := FpResult.value (match f with
      | .single => 0x7FBFFFFF
      | .double => 0x7FF7FFFFFFFFFFFF) 0x10
    let quiet := fun r : FpResult => ∃ v, r = .value v 0 ∧ c v = .quietNan
    let sign := fpSign f
    let two := [fpAdd f env a b, fpSub f env a b, fpMul f env a b, fpDiv f env a b]
    let own := [fpSqrt f env a, fpAbs f env a, fpNeg f env a]
    let fixed := fun g : FpFormat => [fpToWord g rm a, fpToLong g rm a]
    (c a = .denormal ∨ c b = .denormal → ∀ r ∈ two, r = .unimplemented) ∧
    (c a = .denormal → ∀ r ∈ own, r = .unimplemented) ∧
    (fpClass g a = .denormal → ∀ r ∈ fpConvert g f env a :: fixed g, r = .unimplemented) ∧
    (c a ≠ .denormal → c b ≠ .denormal →
      (c a = .signallingNan ∨ c b = .signallingNan → ∀ r ∈ two, r = invalid) ∧
      (c a ≠ .signallingNan → c b ≠ .signallingNan → c a = .quietNan ∨ c b = .quietNan →
        ∀ r ∈ two, quiet r)) ∧
    (c a = .signallingNan → ∀ r ∈ own, r = invalid) ∧
    (c a = .quietNan → (∀ r ∈ own, quiet r) ∧
      (∀ v x, fpAbs f env a = .value v x → sign v = false) ∧
      (∀ v x, fpNeg f env a = .value v x → sign v = !sign a)) ∧
    (fpClass g a = .signallingNan → fpConvert g f env a = invalid) ∧
    (fpClass g a = .quietNan → quiet (fpConvert g f env a)) ∧
    (c a = .infinity →
      (finite b ∨ (c b = .infinity ∧ sign a = sign b) → fpAdd f env a b = inf (sign a) 0) ∧
      (finite b ∨ (c b = .infinity ∧ sign a ≠ sign b) → fpSub f env a b = inf (sign a) 0) ∧
      (c b = .infinity → sign a ≠ sign b → fpAdd f env a b = invalid) ∧
      (c b = .infinity → sign a = sign b → fpSub f env a b = invalid) ∧
      (c b = .normal ∨ c b = .infinity → fpMul f env a b = inf (sign a ^^ sign b) 0) ∧
      (c b = .zero → fpMul f env a b = invalid) ∧
      (finite b → fpDiv f env a b = inf (sign a ^^ sign b) 0) ∧
      (c b = .infinity → fpDiv f env a b = invalid) ∧
      fpSqrt f env a = (if sign a then invalid else inf false 0) ∧
      fpAbs f env a = inf false 0 ∧ fpNeg f env a = inf (!sign a) 0) ∧
    (finite a → c b = .infinity →
      fpAdd f env a b = inf (sign b) 0 ∧ fpSub f env a b = inf (!sign b) 0 ∧
      (c a = .normal → fpMul f env a b = inf (sign a ^^ sign b) 0) ∧
      (c a = .zero → fpMul f env a b = invalid) ∧
      fpDiv f env a b = zero (sign a ^^ sign b)) ∧
    (c b = .zero → (c a = .normal → fpDiv f env a b = inf (sign a ^^ sign b) 0x08) ∧
      (c a = .zero → fpDiv f env a b = invalid)) ∧
    (c a = .normal → sign a = true → fpSqrt f env a = invalid) ∧
    (fpClass g a = .infinity → fpConvert g f env a = inf (fpSign g a) 0) ∧
    (fpClass g a = .infinity ∨ anyNan g a → ∀ r ∈ fixed g, r = .unimplemented) ∧
    (¬ (-2 ^ 55 ≤ a.toInt ∧ a.toInt < 2 ^ 55) → fpOfLong f env a = .unimplemented)
end

