-- ==== Sys2Proof/Laws/Decode.lean ====
section
/-! SUPPORT. What every field of an encoded word reads as, format by format (R161 to R166). -/

namespace Sys2Proof

/-! ### Fields of a concatenation -/

/-- A field that lies within the low part. -/
theorem extractLsb'_append_low {m n : Nat} (a : BitVec m) (b : BitVec n) (s k : Nat) (h : s + k ≤ n) :
    (a ++ b).extractLsb' s k = b.extractLsb' s k := by
  ext i hi
  have : s + i < n := by omega
  simp [BitVec.getLsbD_append, this]

/-- A field that lies within the high part. -/
theorem extractLsb'_append_high {m n : Nat} (a : BitVec m) (b : BitVec n) (s k : Nat) (h : n ≤ s) :
    (a ++ b).extractLsb' s k = a.extractLsb' (s - n) k := by
  ext i hi
  have h₁ : ¬ s + i < n := by omega
  have h₂ : s + i - n = s - n + i := by omega
  simp [BitVec.getLsbD_append, h₁, h₂]

/-- The whole value as a field. -/
theorem extractLsb'_whole {n : Nat} (a : BitVec n) : a.extractLsb' 0 n = a := by simp

/-! ### I-format -/

section
variable (op : BitVec 6) (rs rt : Reg) (imm : BitVec 16)

@[simp] theorem opcodeField_iWord : opcodeField (iWord op rs rt imm) = op := by
  simp (disch := decide) only [opcodeField, iWord, extractLsb'_append_high]; simp
@[simp] theorem rsField_iWord : rsField (iWord op rs rt imm) = rs := by
  simp (disch := decide) only [rsField, iWord, extractLsb'_append_high, extractLsb'_append_low]; simp
@[simp] theorem rtField_iWord : rtField (iWord op rs rt imm) = rt := by
  simp (disch := decide) only [rtField, iWord, extractLsb'_append_high, extractLsb'_append_low]; simp
@[simp] theorem immField_iWord : immField (iWord op rs rt imm) = imm := by
  simp (disch := decide) only [immField, iWord, extractLsb'_append_low]; simp
end

/-! ### J-format -/

section
variable (op : BitVec 6) (target : BitVec 26)

@[simp] theorem opcodeField_jWord : opcodeField (jWord op target) = op := by
  simp (disch := decide) only [opcodeField, jWord, extractLsb'_append_high]; simp
@[simp] theorem targetField_jWord : targetField (jWord op target) = target := by
  simp (disch := decide) only [targetField, jWord, extractLsb'_append_low]; simp
end

/-! ### R-format -/

section
variable (rs rt rd sa : Reg) (funct : BitVec 6)

@[simp] theorem opcodeField_rWord : opcodeField (rWord rs rt rd sa funct) = 0#6 := by
  simp (disch := decide) only [opcodeField, rWord, extractLsb'_append_high]; simp
@[simp] theorem rsField_rWord : rsField (rWord rs rt rd sa funct) = rs := by
  simp (disch := decide) only [rsField, rWord, extractLsb'_append_high, extractLsb'_append_low]; simp
@[simp] theorem rtField_rWord : rtField (rWord rs rt rd sa funct) = rt := by
  simp (disch := decide) only [rtField, rWord, extractLsb'_append_high, extractLsb'_append_low]; simp
@[simp] theorem rdField_rWord : rdField (rWord rs rt rd sa funct) = rd := by
  simp (disch := decide) only [rdField, rWord, extractLsb'_append_high, extractLsb'_append_low]; simp
@[simp] theorem saField_rWord : saField (rWord rs rt rd sa funct) = sa := by
  simp (disch := decide) only [saField, rWord, extractLsb'_append_high, extractLsb'_append_low]; simp
@[simp] theorem functField_rWord : functField (rWord rs rt rd sa funct) = funct := by
  simp (disch := decide) only [functField, rWord, extractLsb'_append_low]; simp
end

/-! ### SYSCALL and BREAK -/

section
variable (code : BitVec 20) (funct : BitVec 6)

@[simp] theorem opcodeField_callWord : opcodeField (callWord code funct) = 0#6 := by
  simp (disch := decide) only [opcodeField, callWord, extractLsb'_append_high]; simp
@[simp] theorem callCodeField_callWord : callCodeField (callWord code funct) = code := by
  simp (disch := decide) only [callCodeField, callWord, extractLsb'_append_high,
    extractLsb'_append_low]; simp
@[simp] theorem functField_callWord : functField (callWord code funct) = funct := by
  simp (disch := decide) only [functField, callWord, extractLsb'_append_low]; simp
end

/-! ### Register traps -/

section
variable (rs rt : Reg) (code : BitVec 10) (funct : BitVec 6)

@[simp] theorem opcodeField_trapWord : opcodeField (trapWord rs rt code funct) = 0#6 := by
  simp (disch := decide) only [opcodeField, trapWord, extractLsb'_append_high]; simp
@[simp] theorem rsField_trapWord : rsField (trapWord rs rt code funct) = rs := by
  simp (disch := decide) only [rsField, trapWord, extractLsb'_append_high, extractLsb'_append_low]
  simp
@[simp] theorem rtField_trapWord : rtField (trapWord rs rt code funct) = rt := by
  simp (disch := decide) only [rtField, trapWord, extractLsb'_append_high, extractLsb'_append_low]
  simp
@[simp] theorem trapCodeField_trapWord : trapCodeField (trapWord rs rt code funct) = code := by
  simp (disch := decide) only [trapCodeField, trapWord, extractLsb'_append_high,
    extractLsb'_append_low]; simp
@[simp] theorem functField_trapWord : functField (trapWord rs rt code funct) = funct := by
  simp (disch := decide) only [functField, trapWord, extractLsb'_append_low]; simp
end

/-! ### Coprocessor moves and operations -/

section
variable (op : BitVec 6) (sub rt rd : Reg) (funct : BitVec 6)

@[simp] theorem opcodeField_moveWord : opcodeField (moveWord op sub rt rd) = op := by
  simp (disch := decide) only [opcodeField, moveWord, extractLsb'_append_high]; simp
@[simp] theorem rsField_moveWord : rsField (moveWord op sub rt rd) = sub := by
  simp (disch := decide) only [rsField, moveWord, extractLsb'_append_high, extractLsb'_append_low]
  simp
@[simp] theorem rtField_moveWord : rtField (moveWord op sub rt rd) = rt := by
  simp (disch := decide) only [rtField, moveWord, extractLsb'_append_high, extractLsb'_append_low]
  simp
@[simp] theorem rdField_moveWord : rdField (moveWord op sub rt rd) = rd := by
  simp (disch := decide) only [rdField, moveWord, extractLsb'_append_high, extractLsb'_append_low]
  simp
@[simp] theorem coBit_moveWord : coBit (moveWord op sub rt rd) = sub.getLsbD 4 := by
  simp only [coBit, moveWord, BitVec.getLsbD_append]; simp
@[simp] theorem opcodeField_coWord : opcodeField (coWord funct) = 0x10#6 := by
  simp (disch := decide) only [opcodeField, coWord, extractLsb'_append_high]; simp
@[simp] theorem functField_coWord : functField (coWord funct) = funct := by
  simp (disch := decide) only [functField, coWord, extractLsb'_append_low]; simp
@[simp] theorem coBit_coWord : coBit (coWord funct) = true := by
  simp only [coBit, coWord, BitVec.getLsbD_append]; simp
end

/-! ### Floating-point operations -/

section
variable (fmt ft fs fd : Reg) (funct : BitVec 6)

@[simp] theorem opcodeField_fpWord : opcodeField (fpWord fmt ft fs fd funct) = 0x11#6 := by
  simp (disch := decide) only [opcodeField, fpWord, extractLsb'_append_high]; simp
@[simp] theorem rsField_fpWord : rsField (fpWord fmt ft fs fd funct) = fmt := by
  simp (disch := decide) only [rsField, fpWord, extractLsb'_append_high, extractLsb'_append_low]; simp
@[simp] theorem rtField_fpWord : rtField (fpWord fmt ft fs fd funct) = ft := by
  simp (disch := decide) only [rtField, fpWord, extractLsb'_append_high, extractLsb'_append_low]; simp
@[simp] theorem rdField_fpWord : rdField (fpWord fmt ft fs fd funct) = fs := by
  simp (disch := decide) only [rdField, fpWord, extractLsb'_append_high, extractLsb'_append_low]; simp
@[simp] theorem saField_fpWord : saField (fpWord fmt ft fs fd funct) = fd := by
  simp (disch := decide) only [saField, fpWord, extractLsb'_append_high, extractLsb'_append_low]; simp
@[simp] theorem functField_fpWord : functField (fpWord fmt ft fs fd funct) = funct := by
  simp (disch := decide) only [functField, fpWord, extractLsb'_append_low]; simp
end

/-! ### Which map a word falls in (R169, R172, R173) -/

theorem decodeWord_special {w : BitVec 32} (h : opcodeField w = 0x00#6) :
    decodeWord w = decodeSpecial w := by unfold decodeWord; rw [h]; rfl
theorem decodeWord_regimm {w : BitVec 32} (h : opcodeField w = 0x01#6) :
    decodeWord w = decodeRegimm w := by unfold decodeWord; rw [h]; rfl
theorem decodeWord_cop0 {w : BitVec 32} (h : opcodeField w = 0x10#6) :
    decodeWord w = decodeCop0 w := by unfold decodeWord; rw [h]; rfl
theorem decodeWord_cop1 {w : BitVec 32} (h : opcodeField w = 0x11#6) :
    decodeWord w = decodeCop1 w := by unfold decodeWord; rw [h]; rfl
theorem decodeCop1_branch {w : BitVec 32} (h : rsField w = 0x08#5) :
    decodeCop1 w = decodeCop1Branch w := by unfold decodeCop1; rw [h]; rfl
theorem decodeCop1_single {w : BitVec 32} (h : rsField w = 0x10#5) :
    decodeCop1 w = decodeCop1Single w := by unfold decodeCop1; rw [h]; rfl
theorem decodeCop1_double {w : BitVec 32} (h : rsField w = 0x11#5) :
    decodeCop1 w = decodeCop1Double w := by unfold decodeCop1; rw [h]; rfl
theorem decodeCop1_word {w : BitVec 32} (h : rsField w = 0x14#5) :
    decodeCop1 w = decodeCop1Word w := by unfold decodeCop1; rw [h]; rfl
theorem decodeCop1_long {w : BitVec 32} (h : rsField w = 0x15#5) :
    decodeCop1 w = decodeCop1Long w := by unfold decodeCop1; rw [h]; rfl

/-! ### Bytes -/

/-- The bytes of a word make the word again. -/
theorem wordOfBytes_bytesOfWord (w : BitVec 32) :
    wordOfBytes (w.extractLsb' 24 8) (w.extractLsb' 16 8) (w.extractLsb' 8 8) (w.extractLsb' 0 8) = w := by
  apply BitVec.eq_of_getLsbD_eq
  intro i hi
  simp only [wordOfBytes, BitVec.getLsbD_append, BitVec.getLsbD_extractLsb']
  by_cases h₁ : i < 8
  · simp [h₁]
  by_cases h₂ : i - 8 < 8
  · simp [h₁, h₂, show 8 + (i - 8) = i by omega]
  by_cases h₃ : i - 8 - 8 < 8
  · simp [h₁, h₂, h₃, show 16 + (i - 8 - 8) = i by omega]
  · simp [h₁, h₂, h₃, show i - 8 - 8 - 8 < 8 by omega, show 24 + (i - 8 - 8 - 8) = i by omega]

end Sys2Proof
end

