-- ==== Sys2Proof/Laws/Memory.lean ====
section
/-! SUPPORT. The laws of the bus: a byte written reads back, every other byte is left alone, and the
canonical form is kept by every operation. -/

namespace Sys2Proof.Machine

/-! ### One byte -/

/-- The byte set reads back; no other byte changes. -/
theorem byteAt_setByte (m : List Host.Cell) (a c : Nat) (b : Byte) :
    Memory.byteAt (Memory.setByte m a b) c = if c = a then some b else Memory.byteAt m c := by
  induction m with
  | nil => simp [Memory.setByte, Memory.byteAt, eq_comm]
  | cons x rest ih =>
    obtain ⟨k, d⟩ := x
    by_cases h₁ : a < k
    · have : Memory.setByte ((k, d) :: rest) a b = (a, b) :: (k, d) :: rest := if_pos h₁
      rw [this]
      by_cases h : a = c
      · simp [Memory.byteAt, h]
      · simp [Memory.byteAt, h, Ne.symm h]
    by_cases h₂ : a = k
    · by_cases h : a = c
      · subst h; simp [Memory.setByte, Memory.byteAt, h₂]
      · have : k ≠ c := h₂ ▸ h
        simp [Memory.setByte, Memory.byteAt, h₂, this, this.symm]
    by_cases h : k = c
    · subst h
      simp [Memory.setByte, Memory.byteAt, h₁, h₂, Ne.symm h₂]
    · simp [Memory.setByte, Memory.byteAt, h₁, h₂, h, ih]

/-- The first address of a list. -/
def firstAddress (m : List Host.Cell) : Option Nat := m.head?.map Prod.fst

/-- The canonical form of a list with a head: its address is in range and below the next one. -/
theorem wf_cons (k : Nat) (b : Byte) (rest : List Host.Cell) :
    Memory.wf ((k, b) :: rest) = true ↔
      k < 2 ^ 32 ∧ (∀ k', firstAddress rest = some k' → k < k') ∧ Memory.wf rest = true := by
  cases rest with
  | nil => simp [Memory.wf, firstAddress]
  | cons x rest => obtain ⟨k', c⟩ := x; simp [Memory.wf, firstAddress, and_assoc]

theorem firstAddress_setByte (m : List Host.Cell) (a : Nat) (b : Byte) :
    firstAddress (Memory.setByte m a b) = some a ∨
      firstAddress (Memory.setByte m a b) = firstAddress m := by
  cases m with
  | nil => exact .inl rfl
  | cons x rest =>
    obtain ⟨k, c⟩ := x
    unfold Memory.setByte
    split_ifs
    · exact .inl rfl
    · exact .inl rfl
    · exact .inr rfl

/-- Setting a byte of the physical space keeps the canonical form. -/
theorem wf_setByte (m : List Host.Cell) (a : Nat) (b : Byte) (ha : a < 2 ^ 32)
    (hm : Memory.wf m = true) : Memory.wf (Memory.setByte m a b) = true := by
  induction m with
  | nil => simpa [Memory.setByte, Memory.wf] using ha
  | cons x rest ih =>
    obtain ⟨k, c⟩ := x
    have hk := (wf_cons k c rest).1 hm
    unfold Memory.setByte
    split_ifs with h₁ h₂
    · exact (wf_cons _ _ _).2 ⟨ha, fun k' h => by simp [firstAddress] at h; omega, hm⟩
    · subst h₂; exact (wf_cons _ _ _).2 ⟨ha, hk.2.1, hk.2.2⟩
    · refine (wf_cons _ _ _).2 ⟨hk.1, fun k' h => ?_, ih hk.2.2⟩
      rcases firstAddress_setByte rest a b with e | e <;> rw [e] at h
      · simp at h; omega
      · exact hk.2.1 k' h

/-! ### An access of several bytes -/

theorem addr_lt (pa : PAddr) (i : Nat) : Memory.addr pa i < 2 ^ 32 := BitVec.isLt _

/-- The bytes of one access have different addresses. -/
theorem addr_injective (pa : PAddr) {i j : Nat} (hi : i < 2 ^ 32) (hj : j < 2 ^ 32)
    (h : Memory.addr pa i = Memory.addr pa j) : i = j := by
  have h := BitVec.eq_of_toNat_eq h
  have h := congrArg BitVec.toNat ((BitVec.add_right_inj pa).1 h)
  simp only [BitVec.toNat_ofNat] at h
  rwa [Nat.mod_eq_of_lt hi, Nat.mod_eq_of_lt hj] at h

theorem wf_writeLast (pa : PAddr) (n : Nat) (v : Word) (k : Nat) (m : List Host.Cell)
    (hm : Memory.wf m = true) : Memory.wf (Memory.writeLast pa n v k m) = true := by
  induction k generalizing m with
  | zero => exact hm
  | succ k ih => exact ih _ (wf_setByte _ _ _ (addr_lt _ _) hm)

/-- A bus write keeps the canonical form. -/
theorem wf_write (m : List Host.Cell) (pa : PAddr) (n : Nat) (v : Word) (hm : Memory.wf m = true) :
    Memory.wf (Memory.write m pa n v) = true := wf_writeLast pa n v n m hm

theorem byteAt_writeLast_outside (pa : PAddr) (n : Nat) (v : Word) (k : Nat) (hk : k ≤ n)
    (m : List Host.Cell) (c : Nat) (hc : ∀ i < n, n - k ≤ i → Memory.addr pa i ≠ c) :
    Memory.byteAt (Memory.writeLast pa n v k m) c = Memory.byteAt m c := by
  induction k generalizing m with
  | zero => rfl
  | succ k ih =>
    rw [Memory.writeLast, ih (by omega) _ (fun i hi h => hc i hi (by omega)), byteAt_setByte,
      if_neg (fun e => hc (n - (k + 1)) (by omega) (le_refl _) e.symm)]

/-- A bus write leaves every byte outside the access alone (R143). -/
theorem byteAt_write_outside (m : List Host.Cell) (pa : PAddr) (n : Nat) (v : Word) (c : Nat)
    (hc : ∀ i < n, Memory.addr pa i ≠ c) :
    Memory.byteAt (Memory.write m pa n v) c = Memory.byteAt m c :=
  byteAt_writeLast_outside pa n v n (le_refl n) m c (fun i hi _ => hc i hi)

theorem byteAt_writeLast_inside (pa : PAddr) (n : Nat) (v : Word) (hn : n ≤ 8) (k : Nat) (hk : k ≤ n)
    (m : List Host.Cell) (i : Nat) (hi : i < n) (hik : n - k ≤ i) :
    Memory.byteAt (Memory.writeLast pa n v k m) (Memory.addr pa i) = some (Memory.byteOf v n i) := by
  induction k generalizing m with
  | zero => omega
  | succ k ih =>
    rw [Memory.writeLast]
    by_cases h : n - k ≤ i
    · exact ih (by omega) _ h
    · have : i = n - (k + 1) := by omega
      subst this
      rw [byteAt_writeLast_outside pa n v k (by omega), byteAt_setByte, if_pos rfl]
      intro j hj hjk e
      have := addr_injective pa (by omega) (by omega) e
      omega

/-- A bus write stores byte `i` of the value at byte `i` of the access, the most significant first
(R143). -/
theorem byteAt_write_inside (m : List Host.Cell) (pa : PAddr) (n : Nat) (v : Word) (hn : n ≤ 8)
    (i : Nat) (hi : i < n) :
    Memory.byteAt (Memory.write m pa n v) (Memory.addr pa i) = some (Memory.byteOf v n i) :=
  byteAt_writeLast_inside pa n v hn n (le_refl n) m i hi (by omega)

/-- A value of several bytes depends on those bytes alone. -/
theorem joinLast_congr (b b' : Nat → Byte) (n : Nat) (k : Nat) (hk : k ≤ n) (acc : Word)
    (h : ∀ i < n, b i = b' i) : Memory.joinLast b n k acc = Memory.joinLast b' n k acc := by
  induction k generalizing acc with
  | zero => rfl
  | succ k ih => rw [Memory.joinLast, Memory.joinLast, h _ (by omega), ih (by omega)]

theorem join_congr {b b' : Nat → Byte} {n : Nat} (h : ∀ i < n, b i = b' i) :
    Memory.join b n = Memory.join b' n := joinLast_congr b b' n n (le_refl n) 0 h

/-- What a read of a memory finds at a byte it holds (R141). -/
theorem busByte_held {s : State} {pa : PAddr} {n i : Nat} {b : Byte} (fetch : Bool)
    (ho : s.owner pa = .ram ∨ s.owner pa = .rom)
    (hb : Memory.byteAt s.mem (Memory.addr pa i) = some b) : s.busByte fetch pa n i = b := by
  rcases ho with ho | ho <;> simp [State.busByte, ho, hb]

/-! ### A read as its bytes -/

/-- A read bit by bit: byte `i` of the access holds the bits `8 (n - 1 - i)` and up (R142). -/
theorem getLsbD_joinLast (byte : Nat → Byte) (n : Nat) (j : Nat) (hn : j ≤ 8)
    (acc : Word) (b : Nat) :
    (Memory.joinLast byte n j acc).getLsbD b =
      if b < 8 * j then (byte (n - 1 - b / 8)).getLsbD (b % 8)
      else decide (b < 64) && acc.getLsbD (b - 8 * j) := by
  induction j generalizing acc with
  | zero =>
    simp only [Memory.joinLast, Nat.mul_zero, Nat.not_lt_zero, if_false, Nat.sub_zero]
    by_cases h : b < 64
    · simp [h]
    · simp [h, BitVec.getLsbD_of_ge acc b (by omega)]
  | succ j ih =>
    rw [Memory.joinLast, ih (by omega)]
    by_cases h : b < 8 * j
    · rw [if_pos h, if_pos (by omega)]
    rw [if_neg h]
    by_cases h' : b < 8 * (j + 1)
    · have e : b / 8 = j := by omega
      have e' : b - 8 * j = b % 8 := by omega
      have hb : b < 64 := by omega
      have e8 : b % 8 < 8 := Nat.mod_lt _ (by decide)
      rw [if_pos h', e, e', show n - (j + 1) = n - 1 - j by omega]
      simp [hb, e8, show b % 8 < 64 by omega]
    · rw [if_neg h']
      by_cases hb : b < 64
      · have : b - 8 * j < 64 := by omega
        rw [BitVec.getLsbD_or, BitVec.getLsbD_shiftLeft, BitVec.getLsbD_setWidth,
          BitVec.getLsbD_of_ge (byte _) _ (by omega),
          show b - 8 * j - 8 = b - 8 * (j + 1) by omega]
        simp [this, hb, show ¬ b - 8 * j < 8 by omega]
      · simp [hb]
theorem getLsbD_join (byte : Nat → Byte) (n : Nat) (hn : n ≤ 8) (b : Nat) :
    (Memory.join byte n).getLsbD b =
      (decide (b < 8 * n) && (byte (n - 1 - b / 8)).getLsbD (b % 8)) := by
  rw [Memory.join, getLsbD_joinLast byte n n hn]
  by_cases h : b < 8 * n <;> simp [h]

/-- Byte `i` of a read is the byte the bus gives there (R142). -/
theorem byteOf_join (byte : Nat → Byte) (n : Nat) (hn : n ≤ 8) (i : Nat) (hi : i < n) :
    Memory.byteOf (Memory.join byte n) n i = byte i := by
  apply BitVec.eq_of_getLsbD_eq
  intro b hb
  simp only [Memory.byteOf, BitVec.getLsbD_extractLsb', getLsbD_join byte n hn]
  rw [show n - 1 - (8 * (n - 1 - i) + b) / 8 = i by omega, show (8 * (n - 1 - i) + b) % 8 = b by omega]
  simp [hb, show 8 * (n - 1 - i) + b < 8 * n by omega]

theorem join_one (byte : Nat → Byte) :
    Memory.join byte 1 = (byte 0).setWidth 64 := by
  simp [Memory.join, Memory.joinLast]

/-- A read of a halfword, as the concatenation of its bytes. -/
theorem join_two (byte : Nat → Byte) :
    Memory.join byte 2 =
      (byte 0 ++ byte 1).setWidth 64 := by
  apply BitVec.eq_of_getLsbD_eq
  intro b hb
  rw [getLsbD_join byte 2 (by decide)]
  simp only [BitVec.getLsbD_setWidth, BitVec.getLsbD_append, hb, decide_true, Bool.true_and]
  by_cases h₀ : b < 8
  · simp [h₀, show b < 16 by omega, show b / 8 = 0 by omega, show b % 8 = b by omega]
  by_cases h₁ : b - 8 < 8
  · simp [h₀, h₁, show b < 16 by omega, show b / 8 = 1 by omega, show b % 8 = b - 8 by omega]
  · simp [h₀, show ¬ b < 16 by omega, BitVec.getLsbD_of_ge _ (b - 8) (show 8 ≤ b - 8 by omega)]

/-- A read of a word, as the concatenation of its bytes. -/
theorem join_four (byte : Nat → Byte) :
    Memory.join byte 4 =
      (byte 0 ++ byte 1 ++ byte 2 ++ byte 3).setWidth 64 := by
  apply BitVec.eq_of_getLsbD_eq
  intro b hb
  rw [getLsbD_join byte 4 (by decide)]
  simp only [BitVec.getLsbD_setWidth, BitVec.getLsbD_append, hb, decide_true, Bool.true_and]
  by_cases h₀ : b < 8
  · simp [h₀, show b < 32 by omega, show b / 8 = 0 by omega, show b % 8 = b by omega]
  by_cases h₁ : b - 8 < 8
  · simp [h₀, h₁, show b < 32 by omega, show b / 8 = 1 by omega, show b % 8 = b - 8 by omega]
  by_cases h₂ : b - 8 - 8 < 8
  · simp [h₀, h₁, h₂, show b < 32 by omega, show b / 8 = 2 by omega, show b % 8 = b - 8 - 8 by omega]
  by_cases h₃ : b - 8 - 8 - 8 < 8
  · simp [h₀, h₁, h₂, h₃, show b < 32 by omega, show b / 8 = 3 by omega, show b % 8 = b - 8 - 8 - 8 by omega]
  · simp [h₀, h₁, h₂, show ¬ b < 32 by omega, BitVec.getLsbD_of_ge _ (b - 8 - 8 - 8) (show 8 ≤ b - 8 - 8 - 8 by omega)]

/-- A read of a doubleword, as the concatenation of its bytes. -/
theorem join_eight (byte : Nat → Byte) :
    Memory.join byte 8 =
      (byte 0 ++ byte 1 ++ byte 2 ++ byte 3 ++ 
        byte 4 ++ byte 5 ++ byte 6 ++ byte 7).setWidth 64 := by
  apply BitVec.eq_of_getLsbD_eq
  intro b hb
  rw [getLsbD_join byte 8 (by decide)]
  simp only [BitVec.getLsbD_setWidth, BitVec.getLsbD_append, hb, decide_true, Bool.true_and]
  by_cases h₀ : b < 8
  · simp [h₀, show b / 8 = 0 by omega, show b % 8 = b by omega]
  by_cases h₁ : b - 8 < 8
  · simp [h₀, h₁, show b / 8 = 1 by omega, show b % 8 = b - 8 by omega]
  by_cases h₂ : b - 8 - 8 < 8
  · simp [h₀, h₁, h₂, show b / 8 = 2 by omega, show b % 8 = b - 8 - 8 by omega]
  by_cases h₃ : b - 8 - 8 - 8 < 8
  · simp [h₀, h₁, h₂, h₃, show b / 8 = 3 by omega, show b % 8 = b - 8 - 8 - 8 by omega]
  by_cases h₄ : b - 8 - 8 - 8 - 8 < 8
  · simp [h₀, h₁, h₂, h₃, h₄, show b / 8 = 4 by omega, show b % 8 = b - 8 - 8 - 8 - 8 by omega]
  by_cases h₅ : b - 8 - 8 - 8 - 8 - 8 < 8
  · simp [h₀, h₁, h₂, h₃, h₄, h₅, show b / 8 = 5 by omega, show b % 8 = b - 8 - 8 - 8 - 8 - 8 by omega]
  by_cases h₆ : b - 8 - 8 - 8 - 8 - 8 - 8 < 8
  · simp [h₀, h₁, h₂, h₃, h₄, h₅, h₆, show b / 8 = 6 by omega, show b % 8 = b - 8 - 8 - 8 - 8 - 8 - 8 by omega]
  simp [h₀, h₁, h₂, h₃, h₄, h₅, h₆, show b / 8 = 7 by omega, show b % 8 = b - 8 - 8 - 8 - 8 - 8 - 8 - 8 by omega]

end Sys2Proof.Machine
end

