-- ==== Sys2Proof/Laws/State.lean ====
section
/-! SUPPORT. What each update of the state does to each field, so that no later proof unfolds one. -/

namespace Sys2Proof.Machine

/-! ### General registers and the pending load -/

@[simp] theorem readGpr_zero (s : State) : s.readGpr 0 = 0 := rfl

/-- A general-register read depends on the register file alone. -/
theorem readGpr_congr {s t : State} (h : t.gpr = s.gpr) (r : Reg) : t.readGpr r = s.readGpr r := by
  simp [State.readGpr, h]

theorem readGpr_setGpr (s : State) (r q : Reg) (v : Word) :
    (s.setGpr r v).readGpr q = if q = r ∧ q ≠ 0 then v else s.readGpr q := by
  by_cases hq : q = 0
  · rw [hq, if_neg (fun h => h.2 rfl)]; rfl
  by_cases hr : r = 0
  · have : s.setGpr r v = s := if_pos hr
    rw [this, if_neg (fun h => hq (h.1.trans hr))]
  · have hs : s.setGpr r v = { s with gpr := s.gpr.set r.toNat v r.isLt } := if_neg hr
    rw [hs, State.readGpr, State.readGpr, if_neg hq, if_neg hq]
    by_cases h : q = r
    · subst h; rw [if_pos (show q = q ∧ q ≠ 0 from ⟨rfl, hq⟩)]; simp
    · have hn : r.toNat ≠ q.toNat := fun e => h (BitVec.eq_of_toNat_eq e.symm)
      rw [if_neg (show ¬ (q = r ∧ q ≠ 0) from fun c => h c.1)]
      exact Vector.getElem_set_ne r.isLt q.isLt hn

/-- Only the register file differs. -/
theorem setGpr_eq (s : State) (r : Reg) (v : Word) :
    s.setGpr r v = { s with gpr := (s.setGpr r v).gpr } := by
  unfold State.setGpr; split <;> rfl

/-- Register 0 keeps what it holds. -/
theorem setGpr_zero (s : State) (r : Reg) (v : Word) : (s.setGpr r v).gpr[0] = s.gpr[0] := by
  unfold State.setGpr
  split
  · rfl
  · next h =>
    have : r.toNat ≠ 0 := fun e => h (BitVec.eq_of_toNat_eq e)
    simp [this]

/-- Only the register file and the pending load differ. -/
theorem commitLoad_eq (s : State) :
    s.commitLoad = { s with gpr := s.commitLoad.gpr, ld := none } := by
  unfold State.commitLoad
  split
  · rw [setGpr_eq]
  · next h => cases s; simp_all

@[simp] theorem readGpr_commitLoad (s : State) (r : Reg) : s.commitLoad.readGpr r = s.committed r := by
  cases h : s.ld with
  | none =>
    simp only [State.commitLoad, State.committed, h]
    by_cases hr : r = 0
    · rw [if_pos hr, hr]; rfl
    · rw [if_neg hr]
  | some l =>
    simp only [State.commitLoad, State.committed, h]
    refine (readGpr_congr (s := s.setGpr l.reg l.value) rfl r).trans ?_
    rw [readGpr_setGpr]
    by_cases hr : r = 0
    · rw [if_pos hr, if_neg (fun c => c.2 hr), hr]; rfl
    · rw [if_neg hr]
      by_cases hl : r = l.reg
      · rw [if_pos ⟨hl, hr⟩]; exact (if_pos hl.symm).symm
      · rw [if_neg (fun c => hl c.1)]; exact (if_neg (Ne.symm hl)).symm

theorem commitLoad_zero (s : State) : s.commitLoad.gpr[0] = s.gpr[0] := by
  unfold State.commitLoad
  split
  · exact setGpr_zero s _ _
  · rfl

@[simp] theorem commitLoad_hi (s : State) : s.commitLoad.hi = s.hi := by rw [commitLoad_eq]
@[simp] theorem commitLoad_lo (s : State) : s.commitLoad.lo = s.lo := by rw [commitLoad_eq]
@[simp] theorem commitLoad_pc (s : State) : s.commitLoad.pc = s.pc := by rw [commitLoad_eq]
@[simp] theorem commitLoad_llbit (s : State) : s.commitLoad.llbit = s.llbit := by rw [commitLoad_eq]
@[simp] theorem commitLoad_fpr (s : State) : s.commitLoad.fpr = s.fpr := by rw [commitLoad_eq]
@[simp] theorem commitLoad_fcr31 (s : State) : s.commitLoad.fcr31 = s.fcr31 := by rw [commitLoad_eq]
@[simp] theorem commitLoad_cp0 (s : State) : s.commitLoad.cp0 = s.cp0 := by rw [commitLoad_eq]
@[simp] theorem commitLoad_tlb (s : State) : s.commitLoad.tlb = s.tlb := by rw [commitLoad_eq]
@[simp] theorem commitLoad_br (s : State) : s.commitLoad.br = s.br := by rw [commitLoad_eq]
@[simp] theorem commitLoad_ld (s : State) : s.commitLoad.ld = none := by rw [commitLoad_eq]
@[simp] theorem commitLoad_pending (s : State) : s.commitLoad.pending = s.pending := by
  rw [commitLoad_eq]
@[simp] theorem commitLoad_irq (s : State) : s.commitLoad.irq = s.irq := by rw [commitLoad_eq]
@[simp] theorem commitLoad_timerIp (s : State) : s.commitLoad.timerIp = s.timerIp := by
  rw [commitLoad_eq]
@[simp] theorem commitLoad_rng (s : State) : s.commitLoad.rng = s.rng := by rw [commitLoad_eq]
@[simp] theorem commitLoad_mem (s : State) : s.commitLoad.mem = s.mem := by rw [commitLoad_eq]
@[simp] theorem commitLoad_ports (s : State) : s.commitLoad.ports = s.ports := by rw [commitLoad_eq]
@[simp] theorem commitLoad_fpu (s : State) : s.commitLoad.fpu = s.fpu := by rw [commitLoad_eq]
@[simp] theorem commitLoad_draws (s : State) : s.commitLoad.draws = s.draws := by rw [commitLoad_eq]

@[simp] theorem setGpr_hi (s : State) (r : Reg) (v : Word) : (s.setGpr r v).hi = s.hi := by
  rw [setGpr_eq]
@[simp] theorem setGpr_lo (s : State) (r : Reg) (v : Word) : (s.setGpr r v).lo = s.lo := by
  rw [setGpr_eq]
@[simp] theorem setGpr_pc (s : State) (r : Reg) (v : Word) : (s.setGpr r v).pc = s.pc := by
  rw [setGpr_eq]
@[simp] theorem setGpr_llbit (s : State) (r : Reg) (v : Word) : (s.setGpr r v).llbit = s.llbit := by
  rw [setGpr_eq]
@[simp] theorem setGpr_fpr (s : State) (r : Reg) (v : Word) : (s.setGpr r v).fpr = s.fpr := by
  rw [setGpr_eq]
@[simp] theorem setGpr_fcr31 (s : State) (r : Reg) (v : Word) : (s.setGpr r v).fcr31 = s.fcr31 := by
  rw [setGpr_eq]
@[simp] theorem setGpr_cp0 (s : State) (r : Reg) (v : Word) : (s.setGpr r v).cp0 = s.cp0 := by
  rw [setGpr_eq]
@[simp] theorem setGpr_tlb (s : State) (r : Reg) (v : Word) : (s.setGpr r v).tlb = s.tlb := by
  rw [setGpr_eq]
@[simp] theorem setGpr_br (s : State) (r : Reg) (v : Word) : (s.setGpr r v).br = s.br := by
  rw [setGpr_eq]
@[simp] theorem setGpr_ld (s : State) (r : Reg) (v : Word) : (s.setGpr r v).ld = s.ld := by
  rw [setGpr_eq]
@[simp] theorem setGpr_pending (s : State) (r : Reg) (v : Word) :
    (s.setGpr r v).pending = s.pending := by rw [setGpr_eq]
@[simp] theorem setGpr_irq (s : State) (r : Reg) (v : Word) : (s.setGpr r v).irq = s.irq := by
  rw [setGpr_eq]
@[simp] theorem setGpr_timerIp (s : State) (r : Reg) (v : Word) :
    (s.setGpr r v).timerIp = s.timerIp := by rw [setGpr_eq]
@[simp] theorem setGpr_rng (s : State) (r : Reg) (v : Word) : (s.setGpr r v).rng = s.rng := by
  rw [setGpr_eq]
@[simp] theorem setGpr_mem (s : State) (r : Reg) (v : Word) : (s.setGpr r v).mem = s.mem := by
  rw [setGpr_eq]
@[simp] theorem setGpr_ports (s : State) (r : Reg) (v : Word) : (s.setGpr r v).ports = s.ports := by
  rw [setGpr_eq]
@[simp] theorem setGpr_fpu (s : State) (r : Reg) (v : Word) : (s.setGpr r v).fpu = s.fpu := by
  rw [setGpr_eq]
@[simp] theorem setGpr_draws (s : State) (r : Reg) (v : Word) : (s.setGpr r v).draws = s.draws := by
  rw [setGpr_eq]

/-! ### The bus -/

/-- Who owns an address depends on the ranges of the bus alone. -/
theorem owner_congr {s t : State} (h : t.ports = s.ports) (pa : PAddr) : t.owner pa = s.owner pa := by
  simp [State.owner, h]

@[simp] theorem owner_commitLoad (s : State) (pa : PAddr) : s.commitLoad.owner pa = s.owner pa :=
  owner_congr (by simp) pa

/-- A write where a memory owns the address (R143). -/
theorem store_ram {s : State} {pa : PAddr} (h : s.owner pa = .ram) (n : Nat) (v : Word) :
    s.store pa n v = { s with mem := Memory.write s.mem pa n v } := by simp [State.store, h]

/-- A write where anything else owns the address (R141). -/
theorem store_ignored {s : State} {pa : PAddr} (h : s.owner pa ≠ .ram) (n : Nat) (v : Word) :
    s.store pa n v = s := by simp [State.store, h]

/-- Only the memories differ. -/
theorem store_eq (s : State) (pa : PAddr) (n : Nat) (v : Word) :
    s.store pa n v = { s with mem := (s.store pa n v).mem } := rfl

/-- A byte of a read depends on the ranges, the bytes held and the counter of free values alone. -/
theorem busByte_congr {s t : State} (hp : t.ports = s.ports) (hm : t.mem = s.mem)
    (hd : t.draws = s.draws) (fetch : Bool) (pa : PAddr) (n i : Nat) :
    t.busByte fetch pa n i = s.busByte fetch pa n i := by
  simp [State.busByte, owner_congr hp, hm, hd]

/-! ### The pc -/

/-- The pc update of an instruction that is not a branch, in one record. -/
theorem advance_eq (s : State) : s.advance = { s with pc := s.sequel, br := none } := by
  unfold State.advance State.sequel
  split <;> next h => cases s; simp_all

/-- The pc update of a taken branch, in one record. -/
theorem branchTo_eq (s : State) (target : Word) :
    s.branchTo target = { s with br := some ⟨target, s.pc⟩, pc := s.sequel } := rfl

/-- The pc the next instruction has depends on the pc and the branch state alone. -/
theorem sequel_congr {s t : State} (hp : t.pc = s.pc) (hb : t.br = s.br) : t.sequel = s.sequel := by
  simp [State.sequel, hp, hb]

/-! ### Floating-point registers -/

theorem readFpr_setFpr (s : State) (i k : Reg) (v : Word) :
    (s.setFpr i v).readFpr k = if k = i then v else s.readFpr k := by
  by_cases h : k = i
  · subst h; simp [State.setFpr, State.readFpr]
  · have : i.toNat ≠ k.toNat := fun e => h (BitVec.eq_of_toNat_eq e.symm)
    simp [State.setFpr, State.readFpr, h, this]

/-- Only the floating-point registers differ. -/
theorem setFpr_eq (s : State) (i : Reg) (v : Word) :
    s.setFpr i v = { s with fpr := (s.setFpr i v).fpr } := rfl

/-- Which register a number names depends on Status alone. -/
theorem fprIndex_congr {s t : State} (h : t.cp0 = s.cp0) (i : Reg) : t.fprIndex i = s.fprIndex i := by
  simp [State.fprIndex, State.fr, h]

/-- A 32-bit or 64-bit write of the move, load or arithmetic form touches one register. -/
theorem writeF64_eq (s : State) (i : Reg) (v : Word) :
    s.writeF64 i v = { s with fpr := s.fpr.set (s.fprIndex i).toNat v (s.fprIndex i).isLt } := rfl

theorem readF64_writeF64 (s : State) (i : Reg) (v : Word) : (s.writeF64 i v).readF64 i = v := by
  have h : (s.writeF64 i v).fprIndex i = s.fprIndex i := fprIndex_congr rfl i
  rw [State.readF64, h, State.writeF64, readFpr_setFpr, if_pos rfl]

/-- The move form of a 32-bit write reads back, and keeps the other half (R41). -/
theorem readF32_writeF32Move (s : State) (i : Reg) (v : BitVec 32) :
    (s.writeF32Move i v).readF32 i = v := by
  unfold State.writeF32Move
  split <;> rename_i h
  · have h' : (s.writeF64 i (v ++ (s.readF64 i).extractLsb' 0 32)).upperHalf i = true := by
      simpa [State.upperHalf, State.fr, State.writeF64, State.setFpr] using h
    rw [State.readF32, if_pos h', readF64_writeF64, BitVec.extractLsb'_append_eq_left]
  · have h' : ¬ (s.writeF64 i ((s.readF64 i).extractLsb' 32 32 ++ v)).upperHalf i = true := by
      simpa [State.upperHalf, State.fr, State.writeF64, State.setFpr] using h
    rw [State.readF32, if_neg h', readF64_writeF64, BitVec.extractLsb'_append_eq_right]

/-- A move-form write touches one register. -/
theorem writeF32Move_eq (s : State) (i : Reg) (v : BitVec 32) :
    s.writeF32Move i v = { s with fpr := (s.writeF32Move i v).fpr } := by
  unfold State.writeF32Move; split <;> rfl

theorem writeF32Move_other (s : State) (i k : Reg) (v : BitVec 32) (h : k ≠ s.fprIndex i) :
    (s.writeF32Move i v).readFpr k = s.readFpr k := by
  unfold State.writeF32Move
  split <;> (rw [State.writeF64, readFpr_setFpr, if_neg h])

/-- The rounding mode by its number (R45, R435). -/
theorem roundModeOf_eq (m : BitVec 2) :
    roundModeOf m = if m = 0 then .nearest else if m = 1 then .towardZero else if m = 2 then .up else .down := by
  revert m; decide

/-- The environment of an arithmetic instruction is FCR31's (R45). -/
theorem fpEnv_eq (s : State) :
    s.fpEnv = ⟨roundModeOf (s.fcr31.extractLsb' 0 2), s.fcr31.getLsbD 24, s.fcr31.extractLsb' 7 5, s.draws⟩ := rfl

/-! ### Status -/

/-- The mode by the bits of Status (R80). -/
theorem mode_eq (s : State) :
    s.mode = if s.cp0.status.getLsbD 1 = true ∨ s.cp0.status.getLsbD 2 = true ∨
        s.cp0.status.extractLsb' 3 2 = 0 then .kernel
      else if s.cp0.status.extractLsb' 3 2 = 1 then .supervisor
      else if s.cp0.status.extractLsb' 3 2 = 2 then .user
      else .undefined := by
  by_cases h : s.cp0.status.getLsbD 1 = true ∨ s.cp0.status.getLsbD 2 = true
  · have h' : (statusExl s.cp0.status || statusErl s.cp0.status) = true := by
      rw [Bool.or_eq_true]; exact h
    rw [if_pos (h.elim .inl fun c => .inr (.inl c))]
    exact if_pos h'
  · have h' : ¬ (statusExl s.cp0.status || statusErl s.cp0.status) = true := by
      rw [Bool.or_eq_true]; exact h
    refine (if_neg h').trans ?_
    by_cases k : s.cp0.status.extractLsb' 3 2 = 0
    · exact (if_pos k).trans (if_pos (.inr (.inr k))).symm
    · exact (if_neg k).trans (if_neg fun c => (or_assoc.2 c).elim h k).symm

theorem mode_kernel_iff (s : State) : s.mode = .kernel ↔
    s.cp0.status.getLsbD 1 = true ∨ s.cp0.status.getLsbD 2 = true ∨
      s.cp0.status.extractLsb' 3 2 = 0 := by
  rw [mode_eq]
  split
  · next h => exact ⟨fun _ => h, fun _ => rfl⟩
  · next h => refine ⟨fun c => ?_, fun c => absurd c h⟩; split_ifs at c

theorem copUsable0_iff (s : State) :
    s.copUsable0 = true ↔ s.mode = .kernel ∨ s.cp0.status.getLsbD 28 = true := by
  simp [State.copUsable0, statusCu0]

theorem copUsable1_iff (s : State) : s.copUsable1 = true ↔ s.cp0.status.getLsbD 29 = true := Iff.rfl

/-- `XAddr()` by the bits of Status (R550). -/
theorem xAddr_eq (s : State) :
    s.xAddr = if s.cp0.status.getLsbD 1 = true ∨ s.cp0.status.getLsbD 2 = true ∨
        s.cp0.status.extractLsb' 3 2 = 0 then s.cp0.status.getLsbD 7
      else if s.cp0.status.extractLsb' 3 2 = 1 then s.cp0.status.getLsbD 6
      else if s.cp0.status.extractLsb' 3 2 = 2 then s.cp0.status.getLsbD 5
      else false := by
  unfold State.xAddr
  rw [mode_eq]
  by_cases h : s.cp0.status.getLsbD 1 = true ∨ s.cp0.status.getLsbD 2 = true ∨ s.cp0.status.extractLsb' 3 2 = 0
  · rw [if_pos h, if_pos h]; rfl
  · rw [if_neg h, if_neg h]
    by_cases k : s.cp0.status.extractLsb' 3 2 = 1
    · rw [if_pos k, if_pos k]; rfl
    · rw [if_neg k, if_neg k]
      by_cases j : s.cp0.status.extractLsb' 3 2 = 2
      · rw [if_pos j, if_pos j]; rfl
      · rw [if_neg j, if_neg j]

/-- A single-bit-mask update of Status leaves the fields outside the mask. -/
theorem mode_congr {s t : State} (h : t.cp0.status = s.cp0.status) : t.mode = s.mode := by
  simp [State.mode, h]

theorem ops64_congr {s t : State} (h : t.cp0.status = s.cp0.status) : t.ops64 = s.ops64 := by
  simp [State.ops64, mode_congr h, h]

theorem translate_congr {s t : State} (hc : t.cp0 = s.cp0) (ht : t.tlb = s.tlb) (va : Word)
    (i : Intent) : t.translate va i = s.translate va i := by
  simp [State.translate, State.tlbHits, State.asid, State.mode, hc, ht]

end Sys2Proof.Machine
end

