-- ==== Sys2Proof/Laws/Ops.lean ====
section
/-! SUPPORT. One lemma per shared operation, which says all it can do; meanings and claims cite these
and unfold no operation. -/

namespace Sys2Proof.Machine

/-! ### Completing -/

/-- The registers, pc, branch and load state after an instruction that completes with `f`, where `f`
leaves the pc, the branch state and the load state alone. -/
theorem advanced_of {s u : State} {w : Option (Reg × Word)} (hpc : u.pc = s.pc) (hbr : u.br = s.br)
    (hld : u.ld = none)
    (hg : ∀ r, u.readGpr r =
      match w with
      | some w => if r = w.1 ∧ r ≠ 0 then w.2 else s.committed r
      | none => s.committed r) :
    Advanced s u.advance w := by
  rw [advance_eq]
  exact ⟨hg, sequel_congr hpc hbr, rfl, hld⟩

/-- `complete` answers a next state, always. -/
theorem complete_next (f : State → State) (s : State) :
    complete f s = .next (f s.commitLoad).advance := rfl

/-- A direct register write (R504, R505, R507). -/
theorem writeBack_spec (rd : Reg) (v : Word) (s : State) :
    ∃ t, writeBack rd v s = .next t ∧ WroteGpr s t rd v := by
  refine ⟨_, rfl, advanced_of (by simp) (by simp) (by simp) fun r => ?_, ?_⟩
  · simp only [readGpr_setGpr, readGpr_commitLoad]
  · simp [SameButGpr, advance_eq]

/-- `LoadDelay` (R504, 3c). -/
theorem loadBack_spec (rt : Reg) (v : Word) (s : State) :
    ∃ t, loadBack rt v s = .next t ∧ Loaded s t rt v ∧ SameButGpr s t := by
  refine ⟨_, rfl, ?_, ?_⟩
  · rw [advance_eq]
    exact ⟨fun r => readGpr_commitLoad s r, sequel_congr (by simp [State.delayLoad])
      (by simp [State.delayLoad]), rfl, rfl⟩
  · simp [SameButGpr, advance_eq, State.delayLoad]

/-- An instruction that writes nothing. -/
theorem completeId_spec (s : State) :
    ∃ t, complete id s = .next t ∧ Advanced s t none ∧ SameButGpr s t := by
  refine ⟨_, rfl, advanced_of (by simp) (by simp) (by simp) fun r => by simp, ?_⟩
  simp [SameButGpr, advance_eq]

/-- What one bus write does to the memories, whoever owns the address (R141, R143). -/
theorem storedBytes_of {s t : State} {pa : PAddr} {n : Nat} {v : Word} (hn : n ≤ 8)
    (h : t.mem = (s.store pa n v).mem) : StoredBytes s t pa n (Memory.byteOf v n) := by
  by_cases ho : s.owner pa = .ram
  · rw [store_ram ho] at h
    exact ⟨fun _ i hi => by rw [h]; exact byteAt_write_inside s.mem pa n v hn i hi,
      fun a ha => by rw [h]; exact byteAt_write_outside s.mem pa n v a ha, fun c => absurd ho c⟩
  · rw [store_ignored ho] at h
    exact ⟨fun c => absurd c ho, fun a _ => by rw [h], fun _ => h⟩

/-- A store's writeback: the registers settle, memory is the only other change. -/
theorem completeStore_spec (pa : PAddr) (n : Nat) (hn : n ≤ 8) (v : Word) (s : State) :
    ∃ t, complete (·.store pa n v) s = .next t ∧ Advanced s t none ∧
      StoredBytes s t pa n (Memory.byteOf v n) ∧ SameButGpr { s with mem := t.mem } t := by
  refine ⟨_, rfl, advanced_of (by simp [State.store]) (by simp [State.store])
    (by simp [State.store]) fun r => readGpr_commitLoad s r, storedBytes_of hn ?_, ?_⟩
  · rw [advance_eq]; simp [State.store]
  · simp [SameButGpr, advance_eq, State.store]

/-! ### Branches -/

/-- A branch without a link that calls `Branch` (R506, R509). -/
theorem completeBranch_spec (target : Word) (s : State) :
    ∃ t, completeBranch id target s = .next t ∧ Branched s t none target := by
  refine ⟨_, rfl, fun r => readGpr_commitLoad s r, ?_, ?_, ?_, ?_⟩
  · rw [branchTo_eq]; exact sequel_congr (by simp) (by simp)
  · rw [branchTo_eq]; simp
  · rw [branchTo_eq]; simp
  · simp [SameButGpr, branchTo_eq]

/-- A branch that links (R270(f), R506, R509). -/
theorem completeLink_spec (rd : Reg) (target : Word) (s : State) :
    ∃ t, completeBranch (State.link rd s.pc) target s = .next t ∧ Branched s t (some rd) target := by
  refine ⟨_, rfl, fun r => ?_, ?_, ?_, ?_, ?_⟩
  · rw [branchTo_eq]
    refine (readGpr_congr (s := s.commitLoad.setGpr rd (s.pc + 8)) rfl r).trans ?_
    simp only [readGpr_setGpr, readGpr_commitLoad, Option.some.injEq, eq_comm]
  · rw [branchTo_eq]; exact sequel_congr (by simp [State.link]) (by simp [State.link])
  · rw [branchTo_eq]; simp [State.link]
  · rw [branchTo_eq]; simp [State.link]
  · simp [SameButGpr, branchTo_eq, State.link]

/-- A branch-likely not taken, without a link (R508, R509). -/
theorem completeNullify_spec (s : State) :
    ∃ t, completeNullify id s = .next t ∧ Nullified s t none := by
  refine ⟨_, rfl, fun r => readGpr_commitLoad s r, ?_, rfl, ?_, ?_⟩
  · simp only [State.nullifySlot, State.sequel, id, commitLoad_br, commitLoad_pc]; cases s.br <;> rfl
  · simp [State.nullifySlot]
  · simp [SameButGpr, State.nullifySlot]

/-- A branch-likely not taken that links (R270(f), R508, R509). -/
theorem completeNullifyLink_spec (rd : Reg) (s : State) :
    ∃ t, completeNullify (State.link rd s.pc) s = .next t ∧ Nullified s t (some rd) := by
  refine ⟨_, rfl, fun r => ?_, ?_, rfl, ?_, ?_⟩
  · refine (readGpr_congr (s := s.commitLoad.setGpr rd (s.pc + 8)) rfl r).trans ?_
    simp only [readGpr_setGpr, readGpr_commitLoad, Option.some.injEq, eq_comm]
  · simp only [State.nullifySlot, State.sequel, State.link, setGpr_br, setGpr_pc, commitLoad_br,
      commitLoad_pc]
    cases s.br <;> rfl
  · simp [State.nullifySlot, State.link]
  · simp [SameButGpr, State.nullifySlot, State.link]

/-! ### Raising -/

/-- What a raised fault leaves (R512). -/
theorem raised_spec (s : State) (kind : FaultKind) (ce : BitVec 2) (bad : Option Word) :
    Raised s (s.raised kind ce bad) kind ce bad := by
  refine ⟨?_, fun r => readGpr_commitLoad s r, by simp [State.raised], rfl, by simp [State.raised], ?_⟩
  · unfold State.raised State.faultRecord
    cases s.br <;> rfl
  · simp [State.raised]

theorem raise_spec (kind : FaultKind) (s : State) :
    ∃ t, raise kind s = .next t ∧ Raised s t kind 0 none := ⟨_, rfl, raised_spec s kind 0 none⟩

theorem raiseAt_spec (kind : FaultKind) (va : Word) (s : State) :
    ∃ t, raiseAt kind va s = .next t ∧ Raised s t kind 0 (some va) :=
  ⟨_, rfl, raised_spec s kind 0 (some va)⟩

theorem raiseCop_spec (n : BitVec 2) (s : State) :
    ∃ t, raiseCop n s = .next t ∧ Raised s t .coprocessorUnusable n none :=
  ⟨_, rfl, raised_spec s .coprocessorUnusable n none⟩

/-! ### The tests before an instruction -/

theorem withOps64_of {s : State} (h : s.ops64 = true) (k : Out) : withOps64 s k = k := if_pos h
theorem withOps64_of_not {s : State} (h : s.ops64 = false) (k : Out) :
    withOps64 s k = raise .reservedInstruction s := if_neg (by simp [h])
theorem withCop0_of {s : State} (h : s.copUsable0 = true) (k : Out) : withCop0 s k = k := if_pos h
theorem withCop0_of_not {s : State} (h : s.copUsable0 = false) (k : Out) :
    withCop0 s k = raiseCop 0 s := if_neg (by simp [h])
theorem withCop1_of {s : State} (h : s.copUsable1 = true) (k : Out) : withCop1 s k = k := if_pos h
theorem withCop1_of_not {s : State} (h : s.copUsable1 = false) (k : Out) :
    withCop1 s k = raiseCop 1 s := if_neg (by simp [h])

/-- An access whose address is aligned and maps. -/
theorem withAligned_of {intent : Intent} {n : Nat} {va : Word} {s : State} {pa : PAddr}
    {attr : CacheAttr} (ha : va.toNat % n = 0) (ht : s.translate va intent = .physical pa attr)
    (k : PAddr → Out) : withAligned intent n va s k = k pa := by
  rw [withAligned, if_pos ha, withTranslation, ht]

theorem withTranslation_of {intent : Intent} {va : Word} {s : State} {pa : PAddr} {attr : CacheAttr}
    (ht : s.translate va intent = .physical pa attr) (k : PAddr → Out) :
    withTranslation intent va s k = k pa := by rw [withTranslation, ht]

theorem withTranslation_raises {intent : Intent} {va : Word} {s : State} {kind : FaultKind}
    (ht : s.translate va intent = .raises kind) (k : PAddr → Out) :
    withTranslation intent va s k = raiseAt kind va s := by rw [withTranslation, ht]

theorem withAligned_misaligned {intent : Intent} {n : Nat} {va : Word} {s : State}
    (ha : va.toNat % n ≠ 0) (k : PAddr → Out) :
    withAligned intent n va s k = raiseAt (.addressError intent) va s := if_neg ha

theorem withAligned_raises {intent : Intent} {n : Nat} {va : Word} {s : State} {kind : FaultKind}
    (ha : va.toNat % n = 0) (ht : s.translate va intent = .raises kind) (k : PAddr → Out) :
    withAligned intent n va s k = raiseAt kind va s := by
  rw [withAligned, if_pos ha, withTranslation, ht]

/-- What the access of one entry can answer (R120, R123). -/
theorem access_cases (e : TlbEntry) (intent : Intent) (va : Word) :
    e.access intent va = .raises (.tlbInvalid intent) ∨ e.access intent va = .raises .tlbModified ∨
      ∃ pa attr, e.access intent va = .physical pa attr := by
  unfold TlbEntry.access
  generalize (if e.oddPage va then (e.pfn1, e.c1, e.d1, e.v1) else (e.pfn0, e.c0, e.d0, e.v0)) = half
  dsimp only
  split
  · exact .inl rfl
  · split
    · exact .inr (.inl rfl)
    · exact .inr (.inr ⟨_, _, rfl⟩)

/-- What `Translate` can raise (R120): a kind that carries an address. -/
theorem translate_raises {s : State} {va : Word} {intent : Intent} {kind : FaultKind}
    (h : s.translate va intent = .raises kind) : kind.hasAddress = true := by
  unfold State.translate at h
  split at h
  · cases h; rfl
  · split at h
    · cases h; rfl
    · cases h
    · cases h
    · split at h
      · cases h; rfl
      · next e _ =>
        rcases access_cases e.1 intent va with c | c | ⟨_, _, c⟩ <;> rw [c] at h <;> cases h <;> rfl
      · cases h

/-- With no address matched twice, a translation never finds two entries (R84, R124). -/
theorem translate_ne_multipleMatch {s : State} (h : s.TlbUnambiguous) (va : Word) (intent : Intent) :
    s.translate va intent ≠ .multipleMatch := by
  intro e
  unfold State.translate at e
  split at e
  · cases e
  · split at e
    · cases e
    · cases e
    · cases e
    · split at e
      · cases e
      · next x _ =>
        rcases access_cases x.1 intent va with c | c | ⟨_, _, c⟩ <;> rw [c] at e <;> cases e
      · next hits h₁ h₂ =>
        have := h va
        match hm : s.tlbHits va with
        | [] => exact h₁ hm
        | [x] => exact h₂ x hm
        | _ :: _ :: _ => rw [hm] at this; simp at this

/-- The number of a matching entry is one of the 32. -/
theorem tlbHits_lt {s : State} {va : Word} {x : TlbEntry × Nat} (h : x ∈ s.tlbHits va) : x.2 < 32 := by
  have := (List.mem_filter.1 h).1
  have := List.snd_lt_of_mem_zipIdx this
  simpa using this

/-! ### The phases around an instruction -/

/-- The advise phase neither stops a step nor starts one. -/
theorem adviseOut_next {o : Out} {t : State} :
    adviseOut o = .next t ↔ ∃ u, o = .next u ∧ t = u.advise := by
  cases o <;> simp [adviseOut, eq_comm]

/-- Dispatch leaves no fault in the latch (R518(d)). -/
theorem dispatch_pending (s : State) : s.dispatch.pending = none := by
  unfold State.dispatch
  split
  · rfl
  · next h => split <;> simp [State.exceptionEntry, h]

/-- The advise phase leaves the registers, memory and the pipeline state alone (R515). -/
theorem advise_eq (s : State) :
    s.advise = { s with cp0 := s.advise.cp0, timerIp := s.advise.timerIp, rng := s.advise.rng,
                        draws := s.draws + 1 } := rfl

/-- Random stays within its bound (R52). -/
theorem nextRandomIndex_bound (rng : Nat) (wired random : BitVec 6) (h : wired ≤ 31) :
    wired ≤ nextRandomIndex rng wired random ∧ nextRandomIndex rng wired random ≤ 31 := by
  unfold nextRandomIndex
  rw [if_pos h]
  split
  · next hb => exact hb
  · exact ⟨h, BitVec.le_refl _⟩

end Sys2Proof.Machine
end

