-- ==== Sys2Proof/Laws/Exec.lean ====
section
/-! SUPPORT. The inversion of `exec`: the few ways in which any instruction can reach a next state.
Claims over all instructions follow from `exec_runs` and a case for each way. -/

namespace Sys2Proof.Machine

/-! ### FCR31 keeps its reserved bits zero -/

/-- Reserved bits that were zero stay zero (R45). -/
def KeepsReserved (old new : BitVec 32) : Prop :=
  old &&& ~~~fcr31Mask = 0 → new &&& ~~~fcr31Mask = 0

theorem keepsReserved_refl (f : BitVec 32) : KeepsReserved f f := id

theorem keepsReserved_and {f g : BitVec 32} (h : KeepsReserved f g) (c : BitVec 32) :
    KeepsReserved f (g &&& c) := fun hf => by
  rw [BitVec.and_assoc, BitVec.and_comm c, ← BitVec.and_assoc, h hf]; simp

theorem keepsReserved_or {f g : BitVec 32} (h : KeepsReserved f g) {c : BitVec 32}
    (hc : c &&& ~~~fcr31Mask = 0) : KeepsReserved f (g ||| c) := fun hf => by
  rw [BitVec.and_comm, BitVec.and_or_distrib_left, BitVec.and_comm, h hf, BitVec.and_comm, hc]; simp

theorem keepsReserved_clearCause {f g : BitVec 32} (h : KeepsReserved f g) :
    KeepsReserved f (fcr31ClearCause g) := keepsReserved_and h _

theorem keepsReserved_setCauseE {f g : BitVec 32} (h : KeepsReserved f g) :
    KeepsReserved f (fcr31SetCauseE g) := keepsReserved_or h (by decide)

theorem keepsReserved_setCause {f g : BitVec 32} (h : KeepsReserved f g) (x : FpExceptions) :
    KeepsReserved f (fcr31SetCause g x) := keepsReserved_or h (by revert x; decide)

theorem keepsReserved_setFlags {f g : BitVec 32} (h : KeepsReserved f g) (x : FpExceptions) :
    KeepsReserved f (fcr31SetFlags g x) := keepsReserved_or h (by revert x; decide)

theorem keepsReserved_setCond {f g : BitVec 32} (h : KeepsReserved f g) (c : Bool) :
    KeepsReserved f (fcr31SetCond g c) :=
  keepsReserved_or (keepsReserved_and h _) (by revert c; decide)

theorem keepsReserved_masked (f v : BitVec 32) : KeepsReserved f (v &&& fcr31Mask) := fun _ => by
  rw [BitVec.and_assoc]; simp

/-! ### What an instruction writes before the pc -/

/-- The state after the pending load and the instruction's own writes, footprint by footprint
(R504, 3a to 3c). -/
inductive Body (s : State) : Effect → State → Prop
  | nothing : Body s .nothing s.commitLoad
  | gpr (rd : Reg) (v : Word) : Body s (.gpr rd) (s.commitLoad.setGpr rd v)
  | load (rt : Reg) (v : Word) : Body s (.load rt) (s.commitLoad.delayLoad rt v)
  | loadLinked (rt : Reg) (pa : PAddr) (v : Word) :
      Body s (.loadLinked rt) ((s.commitLoad.setLink pa).delayLoad rt v)
  | store (pa : PAddr) (n : Nat) (v : Word) : Body s .store (s.commitLoad.store pa n v)
  | stored (rt : Reg) (pa : PAddr) (n : Nat) (v w : Word) :
      Body s (.storeConditional rt) ((s.commitLoad.store pa n v).setGpr rt w)
  | notStored (rt : Reg) (w : Word) : Body s (.storeConditional rt) (s.commitLoad.setGpr rt w)
  | hi (v : Word) : Body s .hi (s.commitLoad.setHi v)
  | lo (v : Word) : Body s .lo (s.commitLoad.setLo v)
  | hiLo (r : Word × Word) : Body s .hiLo (s.commitLoad.setLoHi r)
  | branch : Body s .branch s.commitLoad
  | branchLink (rd : Reg) : Body s (.branchLink rd) (s.commitLoad.setGpr rd (s.pc + 8))
  | cp0 (n : Reg) (v : Word) : Body s (.cp0 n) (s.commitLoad.writeCp0 n v)
  | tlbRead (e : TlbEntry) :
      Body s .tlbRead { s.commitLoad with cp0 := s.commitLoad.cp0.readTlb e }
  | tlbWrite (i : BitVec 5) : Body s .tlbWrite (s.commitLoad.writeTlb i)
  | tlbProbe (found : Option Nat) (h : ∀ i, found = some i → i < 32) :
      Body s .tlbProbe (s.commitLoad.setProbe found)
  | fpr64 (fd : Reg) (v : Word) : Body s (.fpr fd) (s.commitLoad.writeF64 fd v)
  | fpr32 (fd : Reg) (v : BitVec 32) : Body s (.fpr fd) (s.commitLoad.writeF32Move fd v)
  | fcr31 (f : BitVec 32) (h : KeepsReserved s.fcr31 f) : Body s .fcr31 (s.commitLoad.setFcr31 f)
  | fcr31Kept : Body s .fcr31 s.commitLoad
  | fprFcr31 (wide : Bool) (fd : Reg) (v : Word) (f : BitVec 32) (h : KeepsReserved s.fcr31 f) :
      Body s (.fprFcr31 fd) ((s.commitLoad.setFcr31 f).writeFp wide fd v)

/-- A result write touches the floating-point registers alone. -/
theorem writeFp_eq (s : State) (wide : Bool) (i : Reg) (v : Word) :
    s.writeFp wide i v = { s with fpr := (s.writeFp wide i v).fpr } := by
  cases wide <;> rfl

/-- A result write touches one register. -/
theorem writeFp_other (s : State) (wide : Bool) (i k : Reg) (v : Word) (h : k ≠ s.fprIndex i) :
    (s.writeFp wide i v).readFpr k = s.readFpr k := by
  cases wide <;> exact (readFpr_setFpr ..).trans (if_neg h)

/-- An instruction's own writes leave the pc, the branch state and the latch alone. -/
theorem body_pipeline {s u : State} {e : Effect} (b : Body s e u) :
    u.pc = s.pc ∧ u.br = s.br ∧ u.pending = s.pending := by
  cases b
  case fpr32 => rw [writeF32Move_eq]; simp
  case fprFcr31 => rw [writeFp_eq]; simp [State.setFcr31]
  all_goals
    simp [State.delayLoad, State.setLink, State.store, State.setHi, State.setLo, State.setLoHi,
      State.writeCp0, State.writeTlb, State.setProbe, State.writeF64, State.setFpr, State.setFcr31]

/-- Only a general-register load leaves a load pending, and not for register 0 (R504, 3c). -/
theorem body_ld {s u : State} {e : Effect} (b : Body s e u) :
    u.ld.map LoadPending.reg = e.loadTarget.filter (· ≠ 0) := by
  cases b
  case load rt v => by_cases h : rt = 0#5 <;> simp [State.delayLoad, Effect.loadTarget, Option.filter, h]
  case loadLinked rt pa v => by_cases h : rt = 0#5 <;> simp [State.delayLoad, Effect.loadTarget, Option.filter, h]
  case fpr32 => rw [writeF32Move_eq]; simp [Effect.loadTarget]
  case fprFcr31 => rw [writeFp_eq]; simp [State.setFcr31, Effect.loadTarget]
  all_goals
    simp [Effect.loadTarget, State.store, State.setHi, State.setLo,
      State.setLoHi, State.writeCp0, State.writeTlb, State.setProbe, State.writeF64, State.setFpr,
      State.setFcr31]

/-- The footprint of a branch or jump. -/
def Effect.isBranch (e : Effect) : Bool :=
  match e with
  | .branch | .branchLink _ => true
  | _ => false

/-- How an instruction with footprint `e` reaches its next state. -/
inductive Ran (e : Effect) (s t : State) : Prop
  /-- Completed; the pc goes on (R505, R507). -/
  | done (u : State) (body : Body s e u) (hb : Effect.isBranch e = false)
      (he : e ≠ .exceptionReturn) (eq : t = u.advance)
  /-- Called `Branch` (R506). -/
  | took (u : State) (target : Word) (body : Body s e u) (hb : Effect.isBranch e = true)
      (eq : t = u.branchTo target)
  /-- Called `NullifyDelaySlot` (R508). -/
  | nullified (u : State) (body : Body s e u) (hb : Effect.isBranch e = true)
      (eq : t = u.nullifySlot)
  /-- ERET (R560). -/
  | returned (he : e = .exceptionReturn) (eq : t = s.commitLoad.exceptionReturn)
  /-- Raised a fault and wrote nothing (R512). -/
  | raised (kind : FaultKind) (ce : BitVec 2) (bad : Option Word) (hk : kind ≠ .interrupt)
      (hb : bad.isSome = kind.hasAddress) (hc : ce = 0 ∨ (ce = 1 ∧ kind = .coprocessorUnusable))
      (eq : t = s.raised kind ce bad)
  /-- Raised FloatingPoint with FCR31 written (R410, R432). -/
  | raisedFp (f : BitVec 32) (he : e.writesFcr31 = true) (h : KeepsReserved s.fcr31 f)
      (eq : t = (s.setFcr31 f).raised .floatingPoint 0 none)

/-- Every next state an outcome can be is reached in one of these ways. -/
structure Runs (e : Effect) (s : State) (o : Out) : Prop where
  ran : ∀ t, o = .next t → Ran e s t

section
variable {e : Effect} {s : State}

theorem runs_complete {f : State → State} (hb : Effect.isBranch e = false) (he : e ≠ .exceptionReturn)
    (h : Body s e (f s.commitLoad)) : Runs e s (complete f s) := by
  constructor; rintro t ⟨⟩; exact .done _ h hb he rfl

theorem runs_writeBack (rd : Reg) (v : Word) : Runs (.gpr rd) s (writeBack rd v s) :=
  runs_complete rfl (by simp) (.gpr rd v)

theorem runs_loadBack (rt : Reg) (v : Word) : Runs (.load rt) s (loadBack rt v s) :=
  runs_complete rfl (by simp) (.load rt v)

theorem runs_raise (kind : FaultKind) (hk : kind ≠ .interrupt) (hb : kind.hasAddress = false) :
    Runs e s (raise kind s) := by
  constructor; rintro t ⟨⟩; exact .raised kind 0 none hk (by simp [hb]) (.inl rfl) rfl

theorem runs_raiseAt (kind : FaultKind) (va : Word) (hb : kind.hasAddress = true) :
    Runs e s (raiseAt kind va s) := by
  constructor
  rintro t ⟨⟩
  exact .raised kind 0 (some va) (by rintro rfl; cases hb) (by simp [hb]) (.inl rfl) rfl

theorem runs_raiseFp {f : BitVec 32} (he : e.writesFcr31 = true) (h : KeepsReserved s.fcr31 f) :
    Runs e s (raise .floatingPoint (s.setFcr31 f)) := by
  constructor; rintro t ⟨⟩; exact .raisedFp f he h rfl

theorem runs_ite {c : Prop} [Decidable c] {a b : Out} (ha : Runs e s a) (hb : Runs e s b) :
    Runs e s (if c then a else b) := by split <;> assumption

theorem runs_withOps64 {k : Out} (h : Runs e s k) : Runs e s (withOps64 s k) :=
  runs_ite h (runs_raise _ (by simp) rfl)

theorem runs_withCop0 {k : Out} (h : Runs e s k) : Runs e s (withCop0 s k) :=
  runs_ite h (by constructor; rintro t ⟨⟩; exact .raised _ 0 none (by simp) rfl (.inl rfl) rfl)

theorem runs_withCop1 {k : Out} (h : Runs e s k) : Runs e s (withCop1 s k) :=
  runs_ite h (by constructor; rintro t ⟨⟩; exact .raised _ 1 none (by simp) rfl (.inr ⟨rfl, rfl⟩) rfl)

theorem runs_withTranslation {intent : Intent} {va : Word} {k : PAddr → Out}
    (h : ∀ pa, Runs e s (k pa)) : Runs e s (withTranslation intent va s k) := by
  unfold withTranslation
  split
  · exact h _
  · next hk => exact runs_raiseAt _ va (translate_raises hk)
  · constructor; rintro t ⟨⟩

theorem runs_withAligned {intent : Intent} {n : Nat} {va : Word} {k : PAddr → Out}
    (h : ∀ pa, Runs e s (k pa)) : Runs e s (withAligned intent n va s k) :=
  runs_ite (runs_withTranslation h) (runs_raiseAt _ va rfl)

theorem runs_loadGpr (n : Nat) (ext : Word → Word) (rt base : Reg) (imm : BitVec 16) :
    Runs (.load rt) s (loadGpr n ext rt base imm s) :=
  runs_withAligned fun _ => runs_loadBack _ _

theorem runs_storeVirt (n : Nat) (va v : Word) : Runs .store s (storeVirt n va v s) :=
  runs_withAligned fun pa => runs_complete rfl (by simp) (.store pa n v)

theorem runs_storeGpr (n : Nat) (rt base : Reg) (imm : BitVec 16) :
    Runs .store s (storeGpr n rt base imm s) := runs_storeVirt _ _ _

theorem runs_partialStore {va : Word} {place : PAddr → PAddr} {n : Nat} {v : Word} :
    Runs .store s (withTranslation .store va s fun pa => complete (·.store (place pa) n v) s) :=
  runs_withTranslation fun pa => runs_complete rfl (by simp) (.store (place pa) n v)

theorem runs_loadLinked (n : Nat) (ext : Word → Word) (rt base : Reg) (imm : BitVec 16) :
    Runs (.loadLinked rt) s (loadLinked n ext rt base imm s) :=
  runs_withAligned fun pa => runs_complete rfl (by simp) (.loadLinked rt pa _)

theorem runs_storeConditional (n : Nat) (rt base : Reg) (imm : BitVec 16) :
    Runs (.storeConditional rt) s (storeConditional n rt base imm s) :=
  runs_withAligned fun pa => runs_complete rfl (by simp) (by
    cases s.llbit
    · exact .notStored rt _
    · exact .stored rt pa n _ _)

theorem runs_trappingWord (rd : Reg) (c : Bool) (r : BitVec 32) :
    Runs (.gpr rd) s (trappingWord rd c r s) :=
  runs_ite (runs_raise _ (by simp) rfl) (runs_writeBack _ _)

theorem runs_trappingDouble (rd : Reg) (c : Bool) (r : Word) :
    Runs (.gpr rd) s (trappingDouble rd c r s) :=
  runs_withOps64 (runs_ite (runs_raise _ (by simp) rfl) (runs_writeBack _ _))

theorem runs_plainDouble (rd : Reg) (r : Word) : Runs (.gpr rd) s (plainDouble rd r s) :=
  runs_withOps64 (runs_writeBack _ _)

theorem runs_setLoHi (r : Word × Word) : Runs .hiLo s (complete (·.setLoHi r) s) :=
  runs_complete rfl (by simp) (.hiLo r)

theorem runs_jump (target : Word) : Runs .branch s (completeBranch id target s) := by
  constructor; rintro t ⟨⟩; exact .took _ target .branch rfl rfl

theorem runs_link (rd : Reg) (target : Word) :
    Runs (.branchLink rd) s (completeBranch (State.link rd s.pc) target s) := by
  constructor; rintro t ⟨⟩; exact .took _ target (.branchLink rd) rfl rfl

theorem runs_condBranch (c : Bool) (imm : BitVec 16) : Runs .branch s (condBranch c id imm s) :=
  runs_jump _

theorem runs_condLink (c : Bool) (rd : Reg) (imm : BitVec 16) :
    Runs (.branchLink rd) s (condBranch c (State.link rd s.pc) imm s) := runs_link rd _

theorem runs_condBranchLikely (c : Bool) (imm : BitVec 16) :
    Runs .branch s (condBranchLikely c id imm s) :=
  runs_ite (runs_jump _) (by constructor; rintro t ⟨⟩; exact .nullified _ .branch rfl rfl)

theorem runs_condLinkLikely (c : Bool) (rd : Reg) (imm : BitVec 16) :
    Runs (.branchLink rd) s (condBranchLikely c (State.link rd s.pc) imm s) :=
  runs_ite (runs_link rd _) (by constructor; rintro t ⟨⟩; exact .nullified _ (.branchLink rd) rfl rfl)

theorem runs_nothing : Runs .nothing s (complete id s) := runs_complete rfl (by simp) .nothing

theorem runs_trapIf (c : Bool) : Runs .nothing s (trapIf c s) :=
  runs_ite (runs_raise _ (by simp) rfl) runs_nothing

theorem runs_writeCp0 (n : Reg) (v : Word) : Runs (.cp0 n) s (complete (·.writeCp0 n v) s) :=
  runs_complete rfl (by simp) (.cp0 n v)

theorem runs_fpFinish (wide : Bool) (fd : Reg) (r : FpResult) :
    Runs (.fprFcr31 fd) s (fpFinish wide fd r s) := by
  have hc := keepsReserved_clearCause (keepsReserved_refl s.fcr31)
  unfold fpFinish
  dsimp only
  split
  · exact runs_raiseFp rfl (keepsReserved_setCauseE hc)
  · exact runs_ite (runs_raiseFp rfl (keepsReserved_setCause hc _))
      (runs_complete rfl (by simp)
        (.fprFcr31 wide fd _ _ (keepsReserved_setFlags (keepsReserved_setCause hc _) _)))

theorem runs_fpMove (f : FpFormat) (fd fs : Reg) : Runs (.fprFcr31 fd) s (fpMove f fd fs s) :=
  runs_withCop1 (runs_complete rfl (by simp)
    (.fprFcr31 f.wide fd _ _ (keepsReserved_clearCause (keepsReserved_refl _))))

theorem runs_fpCmp (f : FpFormat) (cond : BitVec 4) (fs ft : Reg) :
    Runs .fcr31 s (fpCmp f cond fs ft s) := by
  have hc := keepsReserved_clearCause (keepsReserved_refl s.fcr31)
  exact runs_withCop1 (runs_ite (runs_raiseFp rfl (keepsReserved_setCause hc _))
    (runs_complete rfl (by simp) (.fcr31 _ (keepsReserved_setCond
      (keepsReserved_setFlags (keepsReserved_setCause hc _) _) _))))

theorem runs_ctc1 (rt fs : Reg) : Runs .fcr31 s (execCtc1 rt fs s) :=
  runs_withCop1 (runs_ite
    (runs_ite (runs_raiseFp rfl (keepsReserved_masked _ _))
      (runs_complete rfl (by simp) (.fcr31 _ (keepsReserved_masked _ _))))
    (runs_complete rfl (by simp) .fcr31Kept))

theorem runs_tlbp : Runs .tlbProbe s (execTlbp s) := by
  refine runs_withCop0 ?_
  split
  · exact runs_complete rfl (by simp) (.tlbProbe none (by simp))
  · next e h =>
    refine runs_complete rfl (by simp) (.tlbProbe (some e.2) ?_)
    rintro i ⟨⟩
    exact tlbHits_lt (s := s) (va := s.cp0.entryHi) (by rw [h]; simp)
  · constructor; rintro t ⟨⟩

theorem runs_eret : Runs .exceptionReturn s (execEret s) :=
  runs_withCop0 (by constructor; rintro t ⟨⟩; exact .returned rfl rfl)
end

/-! ### Every instruction -/

/-- The inversion of `exec` (R504, R512, R560). -/
theorem exec_runs (i : Instr) (s : State) : Runs i.effect s (exec i s) := by
  cases i with
  | addi => exact runs_trappingWord ..
  | addiu => exact runs_writeBack ..
  | slti => exact runs_writeBack ..
  | sltiu => exact runs_writeBack ..
  | andi => exact runs_writeBack ..
  | ori => exact runs_writeBack ..
  | xori => exact runs_writeBack ..
  | daddi => exact runs_trappingDouble ..
  | daddiu => exact runs_plainDouble ..
  | lui => exact runs_writeBack ..
  | add => exact runs_trappingWord ..
  | addu => exact runs_writeBack ..
  | sub => exact runs_trappingWord ..
  | subu => exact runs_writeBack ..
  | and => exact runs_writeBack ..
  | or => exact runs_writeBack ..
  | xor => exact runs_writeBack ..
  | nor => exact runs_writeBack ..
  | slt => exact runs_writeBack ..
  | sltu => exact runs_writeBack ..
  | dadd => exact runs_trappingDouble ..
  | daddu => exact runs_plainDouble ..
  | dsub => exact runs_trappingDouble ..
  | dsubu => exact runs_plainDouble ..
  | sll => exact runs_writeBack ..
  | srl => exact runs_writeBack ..
  | sra => exact runs_writeBack ..
  | dsll => exact runs_plainDouble ..
  | dsrl => exact runs_plainDouble ..
  | dsra => exact runs_plainDouble ..
  | dsll32 => exact runs_plainDouble ..
  | dsrl32 => exact runs_plainDouble ..
  | dsra32 => exact runs_plainDouble ..
  | sllv => exact runs_writeBack ..
  | srlv => exact runs_writeBack ..
  | srav => exact runs_writeBack ..
  | dsllv => exact runs_plainDouble ..
  | dsrlv => exact runs_plainDouble ..
  | dsrav => exact runs_plainDouble ..
  | mult => exact runs_setLoHi _
  | multu => exact runs_setLoHi _
  | div => exact runs_setLoHi _
  | divu => exact runs_setLoHi _
  | dmult => exact runs_withOps64 (runs_setLoHi _)
  | dmultu => exact runs_withOps64 (runs_setLoHi _)
  | ddiv => exact runs_withOps64 (runs_setLoHi _)
  | ddivu => exact runs_withOps64 (runs_setLoHi _)
  | mfhi => exact runs_writeBack ..
  | mthi => exact runs_complete rfl (by simp [Instr.effect]) (.hi _)
  | mflo => exact runs_writeBack ..
  | mtlo => exact runs_complete rfl (by simp [Instr.effect]) (.lo _)
  | j => exact runs_jump _
  | jal => exact runs_link ..
  | jr => exact runs_jump _
  | jalr => exact runs_link ..
  | beq => exact runs_condBranch ..
  | bne => exact runs_condBranch ..
  | blez => exact runs_condBranch ..
  | bgtz => exact runs_condBranch ..
  | beql => exact runs_condBranchLikely ..
  | bnel => exact runs_condBranchLikely ..
  | blezl => exact runs_condBranchLikely ..
  | bgtzl => exact runs_condBranchLikely ..
  | bltz => exact runs_condBranch ..
  | bgez => exact runs_condBranch ..
  | bltzl => exact runs_condBranchLikely ..
  | bgezl => exact runs_condBranchLikely ..
  | bltzal => exact runs_condLink ..
  | bgezal => exact runs_condLink ..
  | bltzall => exact runs_condLinkLikely ..
  | bgezall => exact runs_condLinkLikely ..
  | lb => exact runs_loadGpr ..
  | lbu => exact runs_loadGpr ..
  | lh => exact runs_loadGpr ..
  | lhu => exact runs_loadGpr ..
  | lw => exact runs_loadGpr ..
  | lwu => exact runs_withOps64 (runs_loadGpr ..)
  | ld => exact runs_withOps64 (runs_loadGpr ..)
  | lwl => exact runs_withTranslation fun _ => runs_loadBack ..
  | lwr => exact runs_withTranslation fun _ => runs_loadBack ..
  | ldl => exact runs_withOps64 (runs_withTranslation fun _ => runs_loadBack ..)
  | ldr => exact runs_withOps64 (runs_withTranslation fun _ => runs_loadBack ..)
  | sb => exact runs_storeGpr ..
  | sh => exact runs_storeGpr ..
  | sw => exact runs_storeGpr ..
  | sd => exact runs_withOps64 (runs_storeGpr ..)
  | swl => exact runs_partialStore (place := id)
  | swr => exact runs_partialStore (place := alignWord)
  | sdl => exact runs_withOps64 (runs_partialStore (place := id))
  | sdr => exact runs_withOps64 (runs_partialStore (place := alignDouble))
  | ll => exact runs_loadLinked ..
  | lld => exact runs_withOps64 (runs_loadLinked ..)
  | sc => exact runs_storeConditional ..
  | scd => exact runs_withOps64 (runs_storeConditional ..)
  | syscall => exact runs_raise _ (by simp) rfl
  | brk => exact runs_raise _ (by simp) rfl
  | sync => exact runs_nothing
  | cache => exact runs_withCop0 runs_nothing
  | tge => exact runs_trapIf _
  | tgeu => exact runs_trapIf _
  | tlt => exact runs_trapIf _
  | tltu => exact runs_trapIf _
  | teq => exact runs_trapIf _
  | tne => exact runs_trapIf _
  | tgei => exact runs_trapIf _
  | tgeiu => exact runs_trapIf _
  | tlti => exact runs_trapIf _
  | tltiu => exact runs_trapIf _
  | teqi => exact runs_trapIf _
  | tnei => exact runs_trapIf _
  | mfc0 => exact runs_withCop0 (runs_writeBack ..)
  | dmfc0 => exact runs_withCop0 (runs_withOps64 (runs_writeBack ..))
  | mtc0 => exact runs_withCop0 (runs_writeCp0 ..)
  | dmtc0 => exact runs_withCop0 (runs_withOps64 (runs_writeCp0 ..))
  | tlbr => exact runs_withCop0 (runs_complete rfl (by simp [Instr.effect]) (.tlbRead _))
  | tlbwi => exact runs_withCop0 (runs_complete rfl (by simp [Instr.effect]) (.tlbWrite _))
  | tlbwr => exact runs_withCop0 (runs_complete rfl (by simp [Instr.effect]) (.tlbWrite _))
  | tlbp => exact runs_tlbp
  | eret => exact runs_eret
  | lwc1 => exact runs_withCop1 (runs_withAligned fun _ => runs_complete rfl (by simp [Instr.effect]) (.fpr32 ..))
  | ldc1 => exact runs_withCop1 (runs_withAligned fun _ => runs_complete rfl (by simp [Instr.effect]) (.fpr64 ..))
  | swc1 => exact runs_withCop1 (runs_storeVirt ..)
  | sdc1 => exact runs_withCop1 (runs_storeVirt ..)
  | mfc1 => exact runs_withCop1 (runs_writeBack ..)
  | dmfc1 => exact runs_withCop1 (runs_withOps64 (runs_writeBack ..))
  | cfc1 => exact runs_withCop1 (runs_writeBack ..)
  | mtc1 => exact runs_withCop1 (runs_complete rfl (by simp [Instr.effect]) (.fpr32 ..))
  | dmtc1 => exact runs_withCop1 (runs_withOps64 (runs_complete rfl (by simp [Instr.effect]) (.fpr64 ..)))
  | ctc1 => exact runs_ctc1 ..
  | bc1f => exact runs_withCop1 (runs_condBranch ..)
  | bc1t => exact runs_withCop1 (runs_condBranch ..)
  | bc1fl => exact runs_withCop1 (runs_condBranchLikely ..)
  | bc1tl => exact runs_withCop1 (runs_condBranchLikely ..)
  | addS => exact runs_withCop1 (runs_fpFinish ..)
  | addD => exact runs_withCop1 (runs_fpFinish ..)
  | subS => exact runs_withCop1 (runs_fpFinish ..)
  | subD => exact runs_withCop1 (runs_fpFinish ..)
  | mulS => exact runs_withCop1 (runs_fpFinish ..)
  | mulD => exact runs_withCop1 (runs_fpFinish ..)
  | divS => exact runs_withCop1 (runs_fpFinish ..)
  | divD => exact runs_withCop1 (runs_fpFinish ..)
  | sqrtS => exact runs_withCop1 (runs_fpFinish ..)
  | sqrtD => exact runs_withCop1 (runs_fpFinish ..)
  | absS => exact runs_withCop1 (runs_fpFinish ..)
  | absD => exact runs_withCop1 (runs_fpFinish ..)
  | movS => exact runs_fpMove ..
  | movD => exact runs_fpMove ..
  | negS => exact runs_withCop1 (runs_fpFinish ..)
  | negD => exact runs_withCop1 (runs_fpFinish ..)
  | roundLS => exact runs_withCop1 (runs_fpFinish ..)
  | roundLD => exact runs_withCop1 (runs_fpFinish ..)
  | truncLS => exact runs_withCop1 (runs_fpFinish ..)
  | truncLD => exact runs_withCop1 (runs_fpFinish ..)
  | ceilLS => exact runs_withCop1 (runs_fpFinish ..)
  | ceilLD => exact runs_withCop1 (runs_fpFinish ..)
  | floorLS => exact runs_withCop1 (runs_fpFinish ..)
  | floorLD => exact runs_withCop1 (runs_fpFinish ..)
  | roundWS => exact runs_withCop1 (runs_fpFinish ..)
  | roundWD => exact runs_withCop1 (runs_fpFinish ..)
  | truncWS => exact runs_withCop1 (runs_fpFinish ..)
  | truncWD => exact runs_withCop1 (runs_fpFinish ..)
  | ceilWS => exact runs_withCop1 (runs_fpFinish ..)
  | ceilWD => exact runs_withCop1 (runs_fpFinish ..)
  | floorWS => exact runs_withCop1 (runs_fpFinish ..)
  | floorWD => exact runs_withCop1 (runs_fpFinish ..)
  | cvtSD => exact runs_withCop1 (runs_fpFinish ..)
  | cvtSW => exact runs_withCop1 (runs_fpFinish ..)
  | cvtSL => exact runs_withCop1 (runs_fpFinish ..)
  | cvtDS => exact runs_withCop1 (runs_fpFinish ..)
  | cvtDW => exact runs_withCop1 (runs_fpFinish ..)
  | cvtDL => exact runs_withCop1 (runs_fpFinish ..)
  | cvtWS => exact runs_withCop1 (runs_fpFinish ..)
  | cvtWD => exact runs_withCop1 (runs_fpFinish ..)
  | cvtLS => exact runs_withCop1 (runs_fpFinish ..)
  | cvtLD => exact runs_withCop1 (runs_fpFinish ..)
  | cFS => exact runs_fpCmp ..
  | cFD => exact runs_fpCmp ..
  | cUnS => exact runs_fpCmp ..
  | cUnD => exact runs_fpCmp ..
  | cEqS => exact runs_fpCmp ..
  | cEqD => exact runs_fpCmp ..
  | cUeqS => exact runs_fpCmp ..
  | cUeqD => exact runs_fpCmp ..
  | cOltS => exact runs_fpCmp ..
  | cOltD => exact runs_fpCmp ..
  | cUltS => exact runs_fpCmp ..
  | cUltD => exact runs_fpCmp ..
  | cOleS => exact runs_fpCmp ..
  | cOleD => exact runs_fpCmp ..
  | cUleS => exact runs_fpCmp ..
  | cUleD => exact runs_fpCmp ..
  | cSfS => exact runs_fpCmp ..
  | cSfD => exact runs_fpCmp ..
  | cNgleS => exact runs_fpCmp ..
  | cNgleD => exact runs_fpCmp ..
  | cSeqS => exact runs_fpCmp ..
  | cSeqD => exact runs_fpCmp ..
  | cNglS => exact runs_fpCmp ..
  | cNglD => exact runs_fpCmp ..
  | cLtS => exact runs_fpCmp ..
  | cLtD => exact runs_fpCmp ..
  | cNgeS => exact runs_fpCmp ..
  | cNgeD => exact runs_fpCmp ..
  | cLeS => exact runs_fpCmp ..
  | cLeD => exact runs_fpCmp ..
  | cNgtS => exact runs_fpCmp ..
  | cNgtD => exact runs_fpCmp ..
  | cop2 => exact runs_raise _ (by simp) rfl

/-- The inversion of `step` (R500): what the instruction phase left, before the advise phase. -/
theorem step_cases {s t : State} (h : step s = .next t) :
    ∃ u, t = u.advise ∧
      ((∃ w i, s.dispatch.fetchWord = .word w ∧ decodeWord w = .ok i ∧ exec i s.dispatch = .next u) ∨
       (∃ w e, s.dispatch.fetchWord = .word w ∧ decodeWord w = .error e ∧
          u = s.dispatch.raised .reservedInstruction 0 none) ∨
       (∃ kind, s.dispatch.fetchWord = .raises kind ∧
          u = s.dispatch.raised kind 0 (some s.dispatch.pc))) := by
  obtain ⟨u, hu, rfl⟩ := adviseOut_next.1 h
  refine ⟨u, rfl, ?_⟩
  unfold runFetched at hu
  split at hu
  · next w hw =>
    split at hu
    · next i hi => exact .inl ⟨w, i, hw, hi, hu⟩
    · next e he => cases hu; exact .inr (.inl ⟨w, e, hw, he, rfl⟩)
  · next kind hk => cases hu; exact .inr (.inr ⟨kind, hk, rfl⟩)
  · cases hu

/-- What a fetch can raise (R502): a kind that carries an address. -/
theorem fetchWord_raises {s : State} {kind : FaultKind} (h : s.fetchWord = .raises kind) :
    kind.hasAddress = true := by
  unfold State.fetchWord at h
  split at h
  · split at h <;> cases h
    next hk => exact translate_raises hk
  · cases h; rfl

/-! ### Where a store goes -/

/-- If `o` answers a next state, its memories are as before, or as after one bus write at the place
that `place` gives for the physical address of `ea`. -/
structure StoresAt (ea : Word) (place : PAddr → PAddr × Nat) (s : State) (o : Out) : Prop where
  mem : ∀ t, o = .next t → t.mem = s.mem ∨ ∃ pa attr v, s.translate ea .store = .physical pa attr ∧
    t.mem = (s.store (place pa).1 (place pa).2 v).mem

section
variable {ea : Word} {place : PAddr → PAddr × Nat} {s : State}

theorem storesAt_of_mem {o : Out} (h : ∀ t, o = .next t → t.mem = s.mem) : StoresAt ea place s o :=
  ⟨fun t ht => .inl (h t ht)⟩

theorem storesAt_raised {kind : FaultKind} {ce : BitVec 2} {bad : Option Word} :
    StoresAt ea place s (.next (s.raised kind ce bad)) :=
  storesAt_of_mem (by rintro t ⟨⟩; simp [State.raised])

theorem storesAt_withOps64 {k : Out} (h : StoresAt ea place s k) : StoresAt ea place s (withOps64 s k) := by
  unfold withOps64; split
  · exact h
  · exact storesAt_raised

theorem storesAt_withCop1 {k : Out} (h : StoresAt ea place s k) : StoresAt ea place s (withCop1 s k) := by
  unfold withCop1; split
  · exact h
  · exact storesAt_raised

theorem storesAt_withTranslation {k : PAddr → Out}
    (h : ∀ pa attr, s.translate ea .store = .physical pa attr → StoresAt ea place s (k pa)) :
    StoresAt ea place s (withTranslation .store ea s k) := by
  unfold withTranslation; split
  · next pa attr ht => exact h pa attr ht
  · exact storesAt_raised
  · exact storesAt_of_mem (by rintro t ⟨⟩)

theorem storesAt_withAligned {k : PAddr → Out} {n : Nat}
    (h : ∀ pa attr, s.translate ea .store = .physical pa attr → StoresAt ea place s (k pa)) :
    StoresAt ea place s (withAligned .store n ea s k) := by
  unfold withAligned; split
  · exact storesAt_withTranslation h
  · exact storesAt_raised

theorem storesAt_complete {p : PAddr × Nat} {v : Word} {pa : PAddr} {attr : CacheAttr}
    (ht : s.translate ea .store = .physical pa attr) (hp : p = place pa) :
    StoresAt ea place s (complete (·.store p.1 p.2 v) s) := by
  subst hp
  exact ⟨by rintro t ⟨⟩; exact .inr ⟨pa, attr, v, ht, by rw [advance_eq]; simp [State.store]⟩⟩

theorem storesAt_conditional (n : Nat) (rt base : Reg) (imm : BitVec 16) :
    StoresAt (s.effectiveAddress base imm) (fun pa => (pa, n)) s (storeConditional n rt base imm s) := by
  refine storesAt_withAligned fun pa attr ht => ⟨?_⟩
  rintro t ⟨⟩
  rw [advance_eq]
  cases h : s.llbit
  · left; simp
  · right; exact ⟨pa, attr, s.readGpr rt, ht, by simp [State.store]⟩
end

theorem alignWord_eq (pa : PAddr) : alignWord pa = pa &&& ~~~BitVec.ofNat 32 3 := by
  rw [alignWord]; congr 1

theorem alignDouble_eq (pa : PAddr) : alignDouble pa = pa &&& ~~~BitVec.ofNat 32 7 := by
  rw [alignDouble]; congr 1

theorem byteInWord_eq (ea : Word) : byteInWord ea = ea.toNat % 4 := by
  simp [byteInWord, BitVec.extractLsb'_toNat]

theorem byteInDouble_eq (ea : Word) : byteInDouble ea = ea.toNat % 8 := by
  simp [byteInDouble, BitVec.extractLsb'_toNat]

/-- Every storing instruction writes the bytes its shape names and no others (R300, R312 to R319, R332,
R333, R403, R404). -/
theorem exec_stores {i : Instr} {h : StoreShape} (hi : i.storeShape = some h) (s : State) :
    StoresAt (s.effectiveAddress h.base h.imm) (h.span (s.effectiveAddress h.base h.imm)) s (exec i s) := by
  cases i <;> simp only [Instr.storeShape, reduceCtorEq, Option.some.injEq] at hi <;> subst hi <;>
    simp only [StoreShape.span, ← byteInWord_eq, ← byteInDouble_eq, Nat.reduceSub, ← alignWord_eq,
      ← alignDouble_eq]
  case sb => exact storesAt_withAligned fun pa _ ht => storesAt_complete (p := (pa, 1)) ht rfl
  case sh => exact storesAt_withAligned fun pa _ ht => storesAt_complete (p := (pa, 2)) ht rfl
  case sw => exact storesAt_withAligned fun pa _ ht => storesAt_complete (p := (pa, 4)) ht rfl
  case sd => exact storesAt_withOps64 (storesAt_withAligned fun pa _ ht => storesAt_complete (p := (pa, 8)) ht rfl)
  case swl => exact storesAt_withTranslation fun pa _ ht => storesAt_complete (p := (pa, _)) ht rfl
  case swr => exact storesAt_withTranslation fun pa _ ht => storesAt_complete (p := (alignWord pa, _)) ht rfl
  case sdl =>
    exact storesAt_withOps64 (storesAt_withTranslation fun pa _ ht => storesAt_complete (p := (pa, _)) ht rfl)
  case sdr =>
    exact storesAt_withOps64
      (storesAt_withTranslation fun pa _ ht => storesAt_complete (p := (alignDouble pa, _)) ht rfl)
  case sc => exact storesAt_conditional ..
  case scd => exact storesAt_withOps64 (storesAt_conditional ..)
  case swc1 => exact storesAt_withCop1 (storesAt_withAligned fun pa _ ht => storesAt_complete (p := (pa, 4)) ht rfl)
  case sdc1 => exact storesAt_withCop1 (storesAt_withAligned fun pa _ ht => storesAt_complete (p := (pa, 8)) ht rfl)

/-- An instruction without a store shape has no memory in its footprint. -/
theorem writesMem_eq (i : Instr) : i.effect.writesMem = i.storeShape.isSome := by cases i <;> rfl

/-! ### Two states that differ in hidden system state only

`hide s = hide t` for `hide = State.hideSystem …`: every operation of an instruction that does not use
coprocessor 0 answers outcomes that agree so (R571, R572). -/

section
variable {c : Cp0} {irq : IrqLines} {tip : Bool} {rng : Nat}

theorem asid_hideSystem (s : State) : (s.hideSystem c irq tip rng).asid = s.asid :=
  BitVec.extractLsb'_append_eq_right

theorem translate_hideSystem (s : State) (va : Word) (i : Intent) :
    (s.hideSystem c irq tip rng).translate va i = s.translate va i := by
  simp only [State.translate, State.tlbHits, asid_hideSystem]; rfl

theorem hideSystem_idem (s : State) :
    (s.hideSystem c irq tip rng).hideSystem c irq tip rng = s.hideSystem c irq tip rng := by
  have := asid_hideSystem (c := c) (irq := irq) (tip := tip) (rng := rng) s
  unfold State.asid at this
  conv_lhs => rw [State.hideSystem]
  rw [this]; rfl

theorem setGpr_hideSystem (s : State) (r : Reg) (v : Word) :
    (s.hideSystem c irq tip rng).setGpr r v = (s.setGpr r v).hideSystem c irq tip rng := by
  unfold State.setGpr; split <;> rfl

theorem commitLoad_hideSystem (s : State) :
    (s.hideSystem c irq tip rng).commitLoad = s.commitLoad.hideSystem c irq tip rng := by
  have h : (s.hideSystem c irq tip rng).ld = s.ld := rfl
  unfold State.commitLoad
  rw [h]
  cases s.ld
  · rfl
  · simp only [setGpr_hideSystem]; rfl

/-- An instruction that completes (R504). -/
theorem complete_hideSystem {f g : State → State} {s : State}
    (h : ∀ u, (f (u.hideSystem c irq tip rng)).hideSystem c irq tip rng = (g u).hideSystem c irq tip rng) :
    mapNext (State.hideSystem c irq tip rng) (complete f (s.hideSystem c irq tip rng)) =
      mapNext (State.hideSystem c irq tip rng) (complete g s) := by
  have adv : ∀ u : State, u.advance.hideSystem c irq tip rng = (u.hideSystem c irq tip rng).advance :=
    fun u => by simp only [advance_eq]; rfl
  simp only [complete_next, mapNext, adv, commitLoad_hideSystem, h]

/-- One that raises (R512). -/
theorem raised_hideSystem (s : State) (kind : FaultKind) (ce : BitVec 2) (bad : Option Word) :
    ((s.hideSystem c irq tip rng).raised kind ce bad).hideSystem c irq tip rng =
      (s.raised kind ce bad).hideSystem c irq tip rng := by
  unfold State.raised
  rw [commitLoad_hideSystem]
  have h : ∀ (u : State) p b, { u.hideSystem c irq tip rng with pending := p, br := b } =
    ({ u with pending := p, br := b } : State).hideSystem c irq tip rng := fun _ _ _ => rfl
  rw [h, hideSystem_idem]; rfl

/-- Two outcomes that agree but for the hidden system state. -/
def AgreeBut (c : Cp0) (irq : IrqLines) (tip : Bool) (rng : Nat) (o p : Out) : Prop :=
  mapNext (State.hideSystem c irq tip rng) o = mapNext (State.hideSystem c irq tip rng) p

variable {s : State} {k k' : Out}

theorem agree_writeBack (rd : Reg) (v : Word) :
    AgreeBut c irq tip rng (writeBack rd v (s.hideSystem c irq tip rng)) (writeBack rd v s) :=
  complete_hideSystem fun u => by simp only [setGpr_hideSystem, hideSystem_idem]

theorem agree_loadBack (rt : Reg) (v : Word) :
    AgreeBut c irq tip rng (loadBack rt v (s.hideSystem c irq tip rng)) (loadBack rt v s) :=
  complete_hideSystem fun u => hideSystem_idem (u.delayLoad rt v)

theorem agree_raise (kind : FaultKind) :
    AgreeBut c irq tip rng (raise kind (s.hideSystem c irq tip rng)) (raise kind s) :=
  congrArg Host.Outcome.next (raised_hideSystem s kind 0 none)

theorem agree_raiseAt (kind : FaultKind) (va : Word) :
    AgreeBut c irq tip rng (raiseAt kind va (s.hideSystem c irq tip rng)) (raiseAt kind va s) :=
  congrArg Host.Outcome.next (raised_hideSystem s kind 0 (some va))

theorem agree_raiseCop (n : BitVec 2) :
    AgreeBut c irq tip rng (raiseCop n (s.hideSystem c irq tip rng)) (raiseCop n s) :=
  congrArg Host.Outcome.next (raised_hideSystem s .coprocessorUnusable n none)

theorem agree_ite {p : Prop} [Decidable p] {a a' b b' : Out} (h : AgreeBut c irq tip rng a' a)
    (h' : AgreeBut c irq tip rng b' b) : AgreeBut c irq tip rng (if p then a' else b') (if p then a else b) := by
  split <;> assumption

theorem agree_withOps64 (h : AgreeBut c irq tip rng k' k) :
    AgreeBut c irq tip rng (withOps64 (s.hideSystem c irq tip rng) k') (withOps64 s k) :=
  agree_ite h (agree_raise _)

theorem agree_withCop1 (h : AgreeBut c irq tip rng k' k) :
    AgreeBut c irq tip rng (withCop1 (s.hideSystem c irq tip rng) k') (withCop1 s k) :=
  agree_ite h (agree_raiseCop 1)

/-- The only thing an instruction of coprocessor 0 does where it is unusable. -/
theorem agree_withCop0 (hs : s.copUsable0 = false) :
    AgreeBut c irq tip rng (withCop0 (s.hideSystem c irq tip rng) k') (withCop0 s k) := by
  rw [withCop0_of_not hs, withCop0_of_not (show (s.hideSystem c irq tip rng).copUsable0 = false from hs)]
  exact agree_raiseCop 0

theorem agree_withTranslation {intent : Intent} {va : Word} {f f' : PAddr → Out}
    (h : ∀ pa, AgreeBut c irq tip rng (f' pa) (f pa)) :
    AgreeBut c irq tip rng (withTranslation intent va (s.hideSystem c irq tip rng) f')
      (withTranslation intent va s f) := by
  unfold withTranslation
  rw [translate_hideSystem]
  split
  · exact h _
  · exact agree_raiseAt _ va
  · rfl

theorem agree_withAligned {intent : Intent} {n : Nat} {va : Word} {f f' : PAddr → Out}
    (h : ∀ pa, AgreeBut c irq tip rng (f' pa) (f pa)) :
    AgreeBut c irq tip rng (withAligned intent n va (s.hideSystem c irq tip rng) f')
      (withAligned intent n va s f) :=
  agree_ite (agree_withTranslation h) (agree_raiseAt _ va)

/-- An instruction whose own writes `f` use nothing that is hidden. -/
theorem agree_complete {f : State → State}
    (h : ∀ u : State, f (u.hideSystem c irq tip rng) = (f u).hideSystem c irq tip rng) :
    AgreeBut c irq tip rng (complete f (s.hideSystem c irq tip rng)) (complete f s) :=
  complete_hideSystem fun u => by rw [h, hideSystem_idem]

theorem agree_branch {f : State → State} (target : Word)
    (h : ∀ u : State, f (u.hideSystem c irq tip rng) = (f u).hideSystem c irq tip rng) :
    AgreeBut c irq tip rng (completeBranch f target (s.hideSystem c irq tip rng)) (completeBranch f target s) := by
  have hb : ∀ u : State, (u.hideSystem c irq tip rng).branchTo target =
    (u.branchTo target).hideSystem c irq tip rng := fun _ => rfl
  unfold completeBranch
  rw [commitLoad_hideSystem, h, hb]
  exact congrArg Host.Outcome.next (hideSystem_idem _)

theorem agree_nullify {f : State → State}
    (h : ∀ u : State, f (u.hideSystem c irq tip rng) = (f u).hideSystem c irq tip rng) :
    AgreeBut c irq tip rng (completeNullify f (s.hideSystem c irq tip rng)) (completeNullify f s) := by
  have hb : ∀ u : State, (u.hideSystem c irq tip rng).nullifySlot =
    (u.nullifySlot).hideSystem c irq tip rng := fun _ => rfl
  unfold completeNullify
  rw [commitLoad_hideSystem, h, hb]
  exact congrArg Host.Outcome.next (hideSystem_idem _)
end

theorem writeF32Move_hideSystem {c : Cp0} {irq : IrqLines} {tip : Bool} {rng : Nat} (u : State) (i : Reg)
    (v : BitVec 32) : (u.hideSystem c irq tip rng).writeF32Move i v = (u.writeF32Move i v).hideSystem c irq tip rng := by
  have h : (u.hideSystem c irq tip rng).upperHalf i = u.upperHalf i := rfl
  unfold State.writeF32Move; rw [h]; split <;> rfl

theorem writeFp_hideSystem {c : Cp0} {irq : IrqLines} {tip : Bool} {rng : Nat} (u : State) (wide : Bool)
    (i : Reg) (v : Word) :
    (u.hideSystem c irq tip rng).writeFp wide i v = (u.writeFp wide i v).hideSystem c irq tip rng := by
  cases wide <;> rfl

theorem agree_fpFinish {c : Cp0} {irq : IrqLines} {tip : Bool} {rng : Nat} (s : State) (wide : Bool) (fd : Reg)
    (r : FpResult) :
    AgreeBut c irq tip rng (fpFinish wide fd r (s.hideSystem c irq tip rng)) (fpFinish wide fd r s) := by
  have h : ∀ f kind, AgreeBut c irq tip rng (raise kind ((s.hideSystem c irq tip rng).setFcr31 f))
    (raise kind (s.setFcr31 f)) := fun f kind => agree_raise (s := s.setFcr31 f) kind
  unfold fpFinish
  dsimp only
  cases r with
  | unimplemented => exact h ..
  | value v x =>
    exact agree_ite (h ..) (agree_complete fun u => writeFp_hideSystem (u.setFcr31 _) wide fd v)

theorem agree_storeConditional {c : Cp0} {irq : IrqLines} {tip : Bool} {rng : Nat} (s : State) (n : Nat)
    (rt base : Reg) (imm : BitVec 16) :
    AgreeBut c irq tip rng (storeConditional n rt base imm (s.hideSystem c irq tip rng))
      (storeConditional n rt base imm s) := by
  refine agree_withAligned fun pa => complete_hideSystem fun u => ?_
  have h : (s.hideSystem c irq tip rng).llbit = s.llbit := rfl
  rw [h]
  cases s.llbit
  · exact (congrArg _ (setGpr_hideSystem u rt _)).trans (hideSystem_idem _)
  · exact (congrArg _ (setGpr_hideSystem (u.store pa n (s.readGpr rt)) rt _)).trans (hideSystem_idem _)

end Sys2Proof.Machine
end

