-- ==== Sys2Proof/Laws/Fp.lean ====
section
/-! SUPPORT. Floating-point rounding: fields and values of packed numbers, what one rounding does in
every case, and each operation on zero and normal operands as one rounding (R431, R433, R435). -/

namespace Sys2Proof.Machine

/-! ### Fields of a packed value (R430) -/

theorem fracBits_pos (f : FpFormat) : 0 < f.fracBits := by cases f <;> decide

theorem emax_eq (f : FpFormat) : f.emax = 2 ^ f.expBits - 1 := by cases f <;> rfl
theorem emax_bias (f : FpFormat) : f.emax = 2 * f.bias + 1 := by cases f <;> rfl

theorem fpPack_toNat (f : FpFormat) (neg : Bool) {e m : Nat} (he : e < 2 ^ f.expBits)
    (hm : m < 2 ^ f.fracBits) :
    (fpPack f neg e m).toNat =
      (if neg then 2 ^ (f.fracBits + f.expBits) else 0) + e * 2 ^ f.fracBits + m := by
  rw [fpPack, BitVec.toNat_ofNat, Nat.mod_eq_of_lt]
  cases f <;> simp only [FpFormat.fracBits, FpFormat.expBits] at * <;> split_ifs <;> omega

theorem fpFrac_pack (f : FpFormat) (neg : Bool) {e m : Nat} (he : e < 2 ^ f.expBits)
    (hm : m < 2 ^ f.fracBits) : fpFrac f (fpPack f neg e m) = m := by
  rw [fpFrac, fpPack_toNat f neg he hm]
  cases f <;> simp only [FpFormat.fracBits, FpFormat.expBits] at * <;> split_ifs <;> omega

theorem fpExp_pack (f : FpFormat) (neg : Bool) {e m : Nat} (he : e < 2 ^ f.expBits)
    (hm : m < 2 ^ f.fracBits) : fpExp f (fpPack f neg e m) = e := by
  rw [fpExp, fpPack_toNat f neg he hm]
  cases f <;> simp only [FpFormat.fracBits, FpFormat.expBits] at * <;> split_ifs <;> omega

theorem fpSign_eq (f : FpFormat) (v : Word) :
    fpSign f v = decide (v.toNat / 2 ^ (f.fracBits + f.expBits) % 2 = 1) := by
  rw [fpSign, BitVec.getLsbD, Nat.testBit_eq_decide_div_mod_eq]

theorem fpSign_pack (f : FpFormat) (neg : Bool) {e m : Nat} (he : e < 2 ^ f.expBits)
    (hm : m < 2 ^ f.fracBits) : fpSign f (fpPack f neg e m) = neg := by
  rw [fpSign_eq, fpPack_toNat f neg he hm]
  cases f <;> cases neg <;> simp only [FpFormat.fracBits, FpFormat.expBits] at * <;> simp <;> omega

/-- A value that fits its format is its fields. -/
theorem fpPack_fields (f : FpFormat) (v : Word) (h : f = .single → v.toNat < 2 ^ 32) :
    fpPack f (fpSign f v) (fpExp f v) (fpFrac f v) = v := by
  apply BitVec.eq_of_toNat_eq
  have hf : fpFrac f v < 2 ^ f.fracBits := Nat.mod_lt _ (by positivity)
  have he : fpExp f v < 2 ^ f.expBits := Nat.mod_lt _ (by positivity)
  rw [fpPack_toNat f _ he hf, fpSign_eq, fpExp, fpFrac]
  have := v.isLt
  cases f
  · have := h rfl
    simp only [FpFormat.fracBits, FpFormat.expBits] at *
    by_cases c : v.toNat / 2 ^ (23 + 8) % 2 = 1 <;> simp only [c, decide_true, decide_false, if_true, if_false, Bool.false_eq_true] <;> omega
  · simp only [FpFormat.fracBits, FpFormat.expBits] at *
    by_cases c : v.toNat / 2 ^ (52 + 11) % 2 = 1 <;> simp only [c, decide_true, decide_false, if_true, if_false, Bool.false_eq_true] <;> omega

theorem fpFrac_lt (f : FpFormat) (v : Word) : fpFrac f v < 2 ^ f.fracBits := Nat.mod_lt _ (by positivity)
theorem fpExp_lt (f : FpFormat) (v : Word) : fpExp f v < 2 ^ f.expBits := Nat.mod_lt _ (by positivity)

theorem fpClass_normal (f : FpFormat) (v : Word) :
    fpClass f v = .normal ↔ fpExp f v ≠ 0 ∧ fpExp f v ≠ f.emax := by
  unfold fpClass; split_ifs <;> simp_all

theorem fpClass_zero (f : FpFormat) (v : Word) :
    fpClass f v = .zero ↔ fpExp f v = 0 ∧ fpFrac f v = 0 := by
  unfold fpClass; split_ifs <;> simp_all

/-! ### Numeric values (R431) -/

/-- The magnitude as a significand and a power of two. -/
noncomputable def fpMagnitude (f : FpFormat) (v : Word) : ℝ := (fpMant f v : ℝ) * 2 ^ fpScale f v

theorem fpNumber_eq (f : FpFormat) (v : Word) :
    fpNumber f v = (if fpSign f v then -1 else 1) * fpMagnitude f v := by
  unfold fpNumber fpMagnitude
  congr 1
  unfold fpMant fpScale
  have h2 : (2 : ℝ) ≠ 0 := by norm_num
  split_ifs with h
  · rw [zpow_sub₀ h2 (1 - (f.bias : ℤ)) f.fracBits, zpow_natCast]; ring
  · rw [zpow_sub₀ h2 ((fpExp f v : ℤ) - f.bias) f.fracBits, zpow_natCast]; push_cast; field_simp

theorem fpMant_normal (f : FpFormat) (v : Word) (h : fpClass f v = .normal) :
    2 ^ f.fracBits ≤ fpMant f v ∧ fpMant f v < 2 ^ (f.fracBits + 1) := by
  have h := (fpClass_normal f v).1 h
  have := fpFrac_lt f v
  rw [fpMant, if_neg h.1, pow_succ]; omega

theorem fpMagnitude_nonneg (f : FpFormat) (v : Word) : 0 ≤ fpMagnitude f v := by
  unfold fpMagnitude; positivity

theorem fpMagnitude_zero (f : FpFormat) (v : Word) (h : fpClass f v = .zero) : fpMagnitude f v = 0 := by
  have h := (fpClass_zero f v).1 h
  rw [fpMagnitude, fpMant, if_pos h.1, h.2]; simp

theorem fpMagnitude_pos (f : FpFormat) (v : Word) (h : fpClass f v = .normal) : 0 < fpMagnitude f v := by
  have := (fpMant_normal f v h).1
  have : 0 < fpMant f v := lt_of_lt_of_le (by positivity) this
  unfold fpMagnitude; positivity

theorem abs_fpNumber (f : FpFormat) (v : Word) : |fpNumber f v| = fpMagnitude f v := by
  rw [fpNumber_eq, abs_mul, abs_of_nonneg (fpMagnitude_nonneg f v)]
  split_ifs <;> simp

/-! ### Rounding (R435) -/

/-- Rounding `y`, known as `m / 2^sh` and a sticky part, to an integer. -/
theorem roundQuotient_spec (rm : RoundMode) (neg : Bool) (m sh : Nat) (sticky : Bool) (x : ℝ)
    (lo : (m : ℝ) ≤ x) (hi : x < m + 1) (hs : sticky = true ↔ x ≠ m) (hsh : sticky = true → 1 ≤ sh) :
    let r := roundQuotient rm neg m sh sticky
    let fl := m / 2 ^ sh
    let y := x / 2 ^ sh
    (fl : ℝ) ≤ y ∧ y < fl + 1 ∧ (r.1 = fl ∨ r.1 = fl + 1) ∧ (r.2 = true ↔ (r.1 : ℝ) ≠ y) ∧
      ((fl : ℝ) = y → r.1 = fl) ∧
      match rm with
      | .nearest => |y - r.1| ≤ 1 / 2 ∧ (|y - r.1| = 1 / 2 → r.1 % 2 = 0)
      | .towardZero => (r.1 : ℝ) ≤ y
      | .up => if neg then (r.1 : ℝ) ≤ y else y ≤ r.1
      | .down => if neg then y ≤ r.1 else (r.1 : ℝ) ≤ y := by
  intro r fl y
  have hP : (0 : ℝ) < 2 ^ sh := by positivity
  set P : ℕ := 2 ^ sh with hPdef
  have hPp : 0 < P := by positivity
  have hdm : m = P * fl + m % P := (Nat.div_add_mod m P).symm
  have hmod : m % P < P := Nat.mod_lt _ hPp
  have hPq : ((P : ℕ) : ℝ) = 2 ^ sh := by rw [hPdef]; push_cast; rfl
  have hdq : (m : ℝ) = P * fl + (m % P : ℕ) := by exact_mod_cast hdm
  have ylo : (fl : ℝ) ≤ y := by
    rw [le_div_iff₀ hP, ← hPq]
    have : (0 : ℝ) ≤ (m % P : ℕ) := by positivity
    nlinarith
  have yhi : y < fl + 1 := by
    rw [div_lt_iff₀ hP, ← hPq]
    have : ((m % P : ℕ) : ℝ) + 1 ≤ P := by exact_mod_cast hmod
    nlinarith
  have hy : y * P = x := by rw [hPq]; exact div_mul_cancel₀ x hP.ne'
  -- exactness
  have hex : (decide (m % P ≠ 0) || sticky) = true ↔ (fl : ℝ) ≠ y := by
    have hPq0 : (0 : ℝ) < P := by rw [hPq]; exact hP
    constructor
    · intro h heq
      have hx : x = P * fl := by rw [← hy, ← heq]; ring
      have h0 : m % P = 0 := by
        have : ((m % P : ℕ) : ℝ) ≤ 0 := by nlinarith
        exact_mod_cast le_antisymm this (by positivity)
      have hxm : x = m := by rw [hx, hdq, h0]; simp
      rw [h0] at h
      simp at h
      exact hs.1 h hxm
    · intro h
      by_contra hc
      simp only [Bool.or_eq_true, decide_eq_true_eq, not_or, not_not] at hc
      apply h
      have hxm : x = m := by by_contra hne; exact hc.2 (hs.2 hne)
      have : y * P = P * fl := by rw [hy, hxm, hdq, hc.1]; simp
      have : (y - fl) * P = 0 := by linarith
      rcases mul_eq_zero.1 this with h | h
      · linarith
      · exact absurd h hPq0.ne'
  have hint : ∀ up : Bool, (up = true → (decide (m % P ≠ 0) || sticky) = true) →
      ((decide (m % P ≠ 0) || sticky) = true ↔ (((if up then fl + 1 else fl : ℕ) : ℕ) : ℝ) ≠ y) := by
    intro up hup
    cases up
    · simpa using hex
    · constructor
      · intro _; simp; intro h; linarith
      · intro _; exact hup rfl
  have hflat : ∀ up : Bool, (up = true → (decide (m % P ≠ 0) || sticky) = true) →
      (fl : ℝ) = y → (if up then fl + 1 else fl : ℕ) = fl := by
    intro up hup h
    cases up
    · rfl
    · exact absurd h (hex.1 (hup rfl))
  cases rm
  · -- nearest
    have key : ∀ b : Bool, b = (decide (P < 2 * (m % P)) || (decide (2 * (m % P) = P) && (sticky || decide (fl % 2 = 1)))) →
        r = (if b then fl + 1 else fl, decide (m % P ≠ 0) || sticky) → _ := fun b hb hr => by
      have hup : b = true → (decide (m % P ≠ 0) || sticky) = true := by
        intro h; rw [hb] at h
        simp only [Bool.or_eq_true, Bool.and_eq_true, decide_eq_true_eq] at h ⊢
        left; omega
      have hxr : x - m < 1 := by linarith
      have hyx : y * P = P * fl + (m % P : ℕ) + (x - m) := by rw [hy]; linarith
      have hPq0 : (0 : ℝ) < P := by rw [hPq]; exact hP
      show (fl : ℝ) ≤ y ∧ y < fl + 1 ∧ (r.1 = fl ∨ r.1 = fl + 1) ∧ (r.2 = true ↔ (r.1 : ℝ) ≠ y) ∧
        ((fl : ℝ) = y → r.1 = fl) ∧ |y - r.1| ≤ 1 / 2 ∧ (|y - r.1| = 1 / 2 → r.1 % 2 = 0)
      rw [hr]
      refine ⟨ylo, yhi, by cases b <;> simp, hint b hup, hflat b hup, ?_⟩
      have hPeven : sticky = true → 2 ∣ P := fun h => dvd_pow_self 2 (by have := hsh h; omega)
      cases b
      · -- not up
        have hb' : ¬ (P < 2 * (m % P)) ∧ ¬ (2 * (m % P) = P ∧ (sticky = true ∨ fl % 2 = 1)) := by
          have := hb.symm
          simp only [Bool.or_eq_false_iff, Bool.and_eq_false_iff, decide_eq_false_iff_not] at this
          refine ⟨this.1, fun h => ?_⟩
          rcases this.2 with h' | h'
          · exact h' h.1
          · rcases h.2 with h2 | h2
            · rw [h2] at h'; simp at h'
            · exact h'.2 h2
        simp only [Bool.false_eq_true, if_false]
        rw [abs_of_nonneg (by linarith)]
        have h1 : (y - fl) * P = (m % P : ℕ) + (x - m) := by linarith
        by_cases hst : sticky = true
        · have hd := hPeven hst
          have : 2 * (m % P) + 2 ≤ P := by
            have h2 : 2 * (m % P) ≠ P := fun h => hb'.2 ⟨h, .inl hst⟩
            omega
          have : 2 * ((m % P : ℕ) : ℝ) + 2 ≤ P := by exact_mod_cast this
          have : y - fl < 1 / 2 := by nlinarith
          exact ⟨this.le, fun h => absurd h this.ne⟩
        · have hxm : x = m := by by_contra hne; exact hst (hs.2 hne)
          have h3 : 2 * (m % P) ≤ P := by omega
          have h3q : 2 * ((m % P : ℕ) : ℝ) ≤ P := by exact_mod_cast h3
          have h4 : (y - fl) * P = (m % P : ℕ) := by rw [h1, hxm]; ring
          refine ⟨by nlinarith, fun h => ?_⟩
          have : 2 * ((m % P : ℕ) : ℝ) = P := by rw [← h4, h]; ring
          have : 2 * (m % P) = P := by exact_mod_cast this
          by_contra hodd
          exact hb'.2 ⟨this, .inr (by omega)⟩
      · have hb' : P < 2 * (m % P) ∨ (2 * (m % P) = P ∧ (sticky = true ∨ fl % 2 = 1)) := by
          have := hb.symm
          simpa using this
        simp only [if_true]
        push_cast
        rw [abs_of_nonpos (by linarith)]
        have h1 : (y - fl) * P = (m % P : ℕ) + (x - m) := by linarith
        have hx0 : 0 ≤ x - m := by linarith
        rcases hb' with h | ⟨h, h'⟩
        · have : (P : ℝ) + 1 ≤ 2 * ((m % P : ℕ) : ℝ) := by exact_mod_cast h
          have : 1 / 2 < y - fl := by nlinarith
          exact ⟨by linarith, fun h => by linarith⟩
        · have hq : 2 * ((m % P : ℕ) : ℝ) = P := by exact_mod_cast h
          rcases h' with h' | h'
          · have : 0 < x - m := lt_of_le_of_ne hx0 (fun e => hs.1 h' (by linarith))
            have : 1 / 2 < y - fl := by nlinarith
            exact ⟨by linarith, fun h => by linarith⟩
          · have : 1 / 2 ≤ y - fl := by nlinarith
            exact ⟨by linarith, fun _ => by omega⟩
    exact key _ rfl rfl
  · refine ⟨ylo, yhi, .inl rfl, hint false (by simp), fun _ => rfl, ylo⟩
  · have hr : r = (if (decide (m % P ≠ 0) || sticky) && !neg then fl + 1 else fl, decide (m % P ≠ 0) || sticky) := rfl
    rw [hr]
    refine ⟨ylo, yhi, by dsimp only; split_ifs <;> simp, hint _ (by simp; tauto),
      hflat _ (by simp; tauto), ?_⟩
    cases neg
    · simp only [Bool.not_false, Bool.and_true, Bool.false_eq_true, if_false]
      split_ifs with h
      · push_cast; exact yhi.le
      · have : ¬ ((fl : ℝ) ≠ y) := fun c => h (hex.2 c)
        simp only [not_not] at this; exact this.ge
    · simp; exact ylo
  · have hr : r = (if (decide (m % P ≠ 0) || sticky) && neg then fl + 1 else fl, decide (m % P ≠ 0) || sticky) := rfl
    rw [hr]
    refine ⟨ylo, yhi, by dsimp only; split_ifs <;> simp, hint _ (by simp; tauto),
      hflat _ (by simp; tauto), ?_⟩
    cases neg
    · simp; exact ylo
    · simp only [Bool.and_true, if_true]
      split_ifs with h
      · push_cast; exact yhi.le
      · have : ¬ ((fl : ℝ) ≠ y) := fun c => h (hex.2 c)
        simp only [not_not] at this; exact this.ge

/-- What rounding to `p + 1` bits answers for the magnitude `q`: `fl * 2^k` and `(fl + 1) * 2^k` are
the neighbours of `q` on the grid of its binade (R435). -/
structure Rounds (f : FpFormat) (rm : RoundMode) (neg : Bool) (q : ℝ) (r : Rounded) (fl : ℕ) (k : ℤ) :
    Prop where
  mantLow  : 2 ^ f.fracBits ≤ r.mant
  mantHigh : r.mant < 2 ^ (f.fracBits + 1)
  low      : 2 ^ f.fracBits ≤ fl
  high     : fl < 2 ^ (f.fracBits + 1)
  below    : (fl : ℝ) * 2 ^ k ≤ q
  above    : q < ((fl : ℝ) + 1) * 2 ^ k
  grid     : (r.mant : ℝ) * 2 ^ r.scale = fl * 2 ^ k ∨ (r.mant : ℝ) * 2 ^ r.scale = (fl + 1) * 2 ^ k
  inexact  : r.inexact = true ↔ (r.mant : ℝ) * 2 ^ r.scale ≠ q
  exact    : (fl : ℝ) * 2 ^ k = q → (r.mant : ℝ) * 2 ^ r.scale = q
  mode     : match rm with
    | .nearest => |q - r.mant * 2 ^ r.scale| ≤ 2 ^ k / 2 ∧
        (|q - r.mant * 2 ^ r.scale| = 2 ^ k / 2 → r.mant % 2 = 0)
    | .towardZero => (r.mant : ℝ) * 2 ^ r.scale ≤ q
    | .up => if neg then (r.mant : ℝ) * 2 ^ r.scale ≤ q else q ≤ r.mant * 2 ^ r.scale
    | .down => if neg then q ≤ r.mant * 2 ^ r.scale else (r.mant : ℝ) * 2 ^ r.scale ≤ q

/-- Rounding with an unbounded exponent (R435). -/
theorem roundUnbounded_spec (f : FpFormat) (rm : RoundMode) (neg : Bool) (m : Nat) (e : ℤ)
    (sticky : Bool) (q : ℝ) (hm : 0 < m) (lo : (m : ℝ) * 2 ^ e ≤ q) (hi : q < ((m : ℝ) + 1) * 2 ^ e)
    (hs : sticky = true ↔ q ≠ m * 2 ^ e) (hp : sticky = true → f.fracBits + 2 ≤ m.log2) :
    ∃ fl, Rounds f rm neg q (roundUnbounded f rm neg m e sticky) fl (m.log2 + e - f.fracBits) := by
  set p := f.fracBits with hpd
  have h2 : (2 : ℝ) ≠ 0 := by norm_num
  obtain ⟨scale, hscale⟩ : ∃ scale, scale = p + 2 - m.log2 := ⟨_, rfl⟩
  obtain ⟨sh, hsh⟩ : ∃ sh, sh = m.log2 + scale - p := ⟨_, rfl⟩
  have hsh2 : 2 ≤ sh := by omega
  have hks : (m.log2 + e - p : ℤ) = e - scale + sh := by omega
  have hst : sticky = true → scale = 0 := fun h => by have := hp h; omega
  -- the magnitude in units of 2^(e - scale)
  obtain ⟨x, hx⟩ : ∃ x : ℝ, x = q * 2 ^ (-(e - scale)) := ⟨_, rfl⟩
  have hq : q = x * 2 ^ (e - scale : ℤ) := by
    rw [hx, mul_assoc, ← zpow_add₀ h2]; simp
  have hU : (0 : ℝ) < 2 ^ (e - scale : ℤ) := by positivity
  have hme : (m : ℝ) * 2 ^ e = ((m * 2 ^ scale : ℕ) : ℝ) * 2 ^ (e - scale : ℤ) := by
    push_cast; rw [mul_assoc, ← zpow_natCast, ← zpow_add₀ h2]; congr 2; ring
  have hxm : sticky = true ↔ x ≠ ((m * 2 ^ scale : ℕ) : ℝ) := by
    rw [hs, hme, hq]
    exact not_congr ⟨fun h => mul_right_cancel₀ hU.ne' h, fun h => by rw [h]⟩
  have xlo : ((m * 2 ^ scale : ℕ) : ℝ) ≤ x := by
    rw [hme, hq] at lo; exact le_of_mul_le_mul_right lo hU
  have xhi : x < ((m * 2 ^ scale : ℕ) : ℝ) + 1 := by
    by_cases h : sticky = true
    · have h0 := hst h
      rw [hq, h0] at hi
      rw [h0]; simp only [pow_zero, mul_one, Nat.cast_zero, sub_zero] at *
      exact lt_of_mul_lt_mul_right hi (by positivity)
    · have : x = ((m * 2 ^ scale : ℕ) : ℝ) := by by_contra c; exact h (hxm.2 c)
      linarith
  have R := roundQuotient_spec rm neg (m * 2 ^ scale) sh sticky x xlo xhi hxm (fun _ => by omega)
  obtain ⟨fl, hfl⟩ : ∃ fl, fl = m * 2 ^ scale / 2 ^ sh := ⟨_, rfl⟩
  obtain ⟨r, hr⟩ : ∃ r, r = roundQuotient rm neg (m * 2 ^ scale) sh sticky := ⟨_, rfl⟩
  simp only [← hfl, ← hr] at R
  obtain ⟨R1, R2, R3, R4, R6, R5⟩ := R
  have hV : (0 : ℝ) < 2 ^ (e - scale + sh : ℤ) := by positivity
  have hqV : q = x / 2 ^ sh * 2 ^ (e - scale + sh : ℤ) := by
    rw [hq, zpow_add₀ h2, zpow_natCast]; field_simp
  have hlog : 2 ^ m.log2 ≤ m ∧ m < 2 ^ (m.log2 + 1) :=
    ⟨Nat.log2_self_le hm.ne', Nat.lt_log2_self⟩
  have hflb : 2 ^ p ≤ fl ∧ fl < 2 ^ (p + 1) := by
    rw [hfl]
    constructor
    · rw [Nat.le_div_iff_mul_le (by positivity), ← pow_add]
      calc 2 ^ (p + sh) = 2 ^ m.log2 * 2 ^ scale := by rw [← pow_add]; congr 1; omega
        _ ≤ m * 2 ^ scale := Nat.mul_le_mul_right _ hlog.1
    · rw [Nat.div_lt_iff_lt_mul (by positivity), ← pow_add]
      calc m * 2 ^ scale < 2 ^ (m.log2 + 1) * 2 ^ scale := Nat.mul_lt_mul_of_pos_right hlog.2 (by positivity)
        _ = 2 ^ (p + 1 + sh) := by rw [← pow_add]; congr 1; omega
  have hdef : roundUnbounded f rm neg m e sticky =
      if r.1 = 2 ^ (p + 1) then ⟨2 ^ p, e - scale + sh + 1, r.2⟩ else ⟨r.1, e - scale + sh, r.2⟩ := by
    rw [hr, hsh, hscale]; rfl
  obtain ⟨u, hu⟩ : ∃ u, u = roundUnbounded f rm neg m e sticky := ⟨_, rfl⟩
  have huV : (u.mant : ℝ) * 2 ^ u.scale = r.1 * 2 ^ (e - scale + sh : ℤ) := by
    rw [hu, hdef]
    split_ifs with h
    · rw [h, zpow_add_one₀ h2]; push_cast; ring
    · rfl
  have hui : u.inexact = r.2 := by rw [hu, hdef]; split_ifs <;> rfl
  have hupar : r.1 % 2 = 0 → u.mant % 2 = 0 := by
    rw [hu, hdef]; split_ifs
    · intro _; have := fracBits_pos f
      exact Nat.mod_eq_zero_of_dvd (dvd_pow_self 2 (by omega))
    · exact id
  have hub : 2 ^ p ≤ u.mant ∧ u.mant < 2 ^ (p + 1) := by
    rw [hu, hdef]; split_ifs with h
    · exact ⟨le_refl _, Nat.pow_lt_pow_right (by norm_num) (by omega)⟩
    · dsimp only; rcases R3 with h' | h' <;> rw [h'] at h ⊢ <;> omega
  refine ⟨fl, ?_⟩
  rw [← hu, hks]
  refine ⟨hub.1, hub.2, hflb.1, hflb.2, ?_, ?_, ?_, ?_, ?_, ?_⟩
  · rw [hqV]; exact mul_le_mul_of_nonneg_right R1 hV.le
  · rw [hqV]; exact mul_lt_mul_of_pos_right R2 hV
  · rw [huV]; rcases R3 with h | h <;> rw [h]
    · exact .inl rfl
    · right; push_cast; rfl
  · rw [hui, huV, hqV, R4]
    exact not_congr ⟨fun h => by rw [h], fun h => mul_right_cancel₀ hV.ne' h⟩
  · intro h
    rw [hqV] at h
    rw [huV, hqV, R6 (mul_right_cancel₀ hV.ne' h), mul_right_cancel₀ hV.ne' h]
  · have hdist : |q - r.1 * 2 ^ (e - scale + sh : ℤ)| = |x / 2 ^ sh - r.1| * 2 ^ (e - scale + sh : ℤ) := by
      rw [hqV, ← sub_mul, abs_mul, abs_of_pos hV]
    rw [huV]
    have le1 : (r.1 : ℝ) ≤ x / 2 ^ sh → (r.1 : ℝ) * 2 ^ (e - scale + sh : ℤ) ≤ q := fun h => by
      rw [hqV]; exact mul_le_mul_of_nonneg_right h hV.le
    have le2 : x / 2 ^ sh ≤ (r.1 : ℝ) → q ≤ (r.1 : ℝ) * 2 ^ (e - scale + sh : ℤ) := fun h => by
      rw [hqV]; exact mul_le_mul_of_nonneg_right h hV.le
    cases rm
    · dsimp only at R5 ⊢
      rw [hdist]
      refine ⟨by nlinarith [R5.1], fun h => hupar (R5.2 ?_)⟩
      have : (|x / 2 ^ sh - r.1| - 1 / 2) * 2 ^ (e - scale + sh : ℤ) = 0 := by linarith
      rcases mul_eq_zero.1 this with h' | h'
      · linarith
      · exact absurd h' hV.ne'
    · exact le1 R5
    · dsimp only at R5 ⊢; split_ifs at R5 ⊢ <;> [exact le1 R5; exact le2 R5]
    · dsimp only at R5 ⊢; split_ifs at R5 ⊢ <;> [exact le2 R5; exact le1 R5]

/-- No number of `p + 1` bits lies strictly between two neighbours on the grid of their binade. -/
theorem no_number_between (p : ℕ) (fl : ℕ) (k : ℤ) (M : ℕ) (E : ℤ) (hfl : 2 ^ p ≤ fl)
    (hM : M < 2 ^ (p + 1)) (h1 : (fl : ℝ) * 2 ^ k < M * 2 ^ E) : ((fl : ℝ) + 1) * 2 ^ k ≤ M * 2 ^ E := by
  have h2 : (2 : ℝ) ≠ 0 := by norm_num
  have hk : k ≤ E := by
    by_contra hc
    have hE : E + 1 ≤ k := by omega
    have a : (M : ℝ) * 2 ^ E ≤ 2 ^ (p + 1) * 2 ^ E := by
      apply mul_le_mul_of_nonneg_right _ (by positivity); exact_mod_cast hM.le
    have b : (2 : ℝ) ^ p * 2 ^ k ≤ fl * 2 ^ k := by
      apply mul_le_mul_of_nonneg_right _ (by positivity); exact_mod_cast hfl
    have c : (2 : ℝ) ^ (E + 1) ≤ 2 ^ k := zpow_le_zpow_right₀ (by norm_num) hE
    rw [zpow_add_one₀ h2] at c
    have d : (2 : ℝ) ^ (p + 1) * 2 ^ E = 2 ^ p * (2 ^ E * 2) := by rw [pow_succ]; ring
    have e : (2 : ℝ) ^ p * (2 ^ E * 2) ≤ 2 ^ p * 2 ^ k := mul_le_mul_of_nonneg_left c (by positivity)
    linarith
  obtain ⟨n, hn⟩ : ∃ n : ℕ, E = k + n := ⟨(E - k).toNat, by omega⟩
  have hU : (0 : ℝ) < 2 ^ k := by positivity
  have he : (M : ℝ) * 2 ^ E = ((M * 2 ^ n : ℕ) : ℝ) * 2 ^ k := by
    rw [hn, zpow_add₀ h2, zpow_natCast]; push_cast; ring
  rw [he] at h1 ⊢
  have := lt_of_mul_lt_mul_right h1 hU.le
  have : fl + 1 ≤ M * 2 ^ n := by exact_mod_cast this
  apply mul_le_mul_of_nonneg_right _ hU.le
  exact_mod_cast this

theorem bias_pos (f : FpFormat) : 0 < f.bias := by cases f <;> decide

/-- The pattern with a normal significand and scale. -/
theorem fpPack_normal (f : FpFormat) (neg : Bool) (M : Nat) (E : ℤ) (h1 : 2 ^ f.fracBits ≤ M)
    (h2 : M < 2 ^ (f.fracBits + 1)) (lo : 1 - (f.bias : ℤ) ≤ E + f.fracBits)
    (hi : E + f.fracBits ≤ f.bias) :
    let v := fpPack f neg (E + f.fracBits + f.bias).toNat (M - 2 ^ f.fracBits)
    fpClass f v = .normal ∧ fpSign f v = neg ∧ fpMagnitude f v = M * 2 ^ E ∧
      fpFrac f v = M - 2 ^ f.fracBits := by
  intro v
  obtain ⟨x, hx⟩ : ∃ x, x = (E + f.fracBits + f.bias).toNat := ⟨_, rfl⟩
  have hx1 : 1 ≤ x := by omega
  have hxb : (x : ℤ) = E + f.fracBits + f.bias := by omega
  have hem := emax_bias f
  have hex := emax_eq f
  have hxe : x < f.emax := by omega
  have hxl : x < 2 ^ f.expBits := by omega
  have hm : M - 2 ^ f.fracBits < 2 ^ f.fracBits := by rw [pow_succ] at h2; omega
  have hv : v = fpPack f neg x (M - 2 ^ f.fracBits) := by rw [hx]
  have he : fpExp f v = x := by rw [hv]; exact fpExp_pack f neg hxl hm
  have hf : fpFrac f v = M - 2 ^ f.fracBits := by rw [hv]; exact fpFrac_pack f neg hxl hm
  refine ⟨(fpClass_normal f v).2 ⟨by omega, by omega⟩, by rw [hv]; exact fpSign_pack f neg hxl hm, ?_, hf⟩
  rw [fpMagnitude, fpMant, fpScale, he, hf, if_neg (by omega), if_neg (by omega)]
  congr 2 <;> omega

/-- The scale of a normal number is within the format. -/
theorem fpScale_bounds (f : FpFormat) (v : Word) (h : fpClass f v = .normal) :
    1 - (f.bias : ℤ) ≤ fpScale f v + f.fracBits ∧ fpScale f v + f.fracBits ≤ f.bias := by
  have h := (fpClass_normal f v).1 h
  have := fpExp_lt f v
  have h1 := emax_bias f
  have h2 := emax_eq f
  rw [fpScale, if_neg h.1]
  omega

/-- Two normal significands of one magnitude are equal. -/
theorem normal_unique (p : ℕ) (M M' : ℕ) (E E' : ℤ) (h1 : 2 ^ p ≤ M) (h2 : M < 2 ^ (p + 1))
    (h1' : 2 ^ p ≤ M') (h2' : M' < 2 ^ (p + 1)) (h : (M : ℝ) * 2 ^ E = M' * 2 ^ E') :
    M = M' ∧ E = E' := by
  have z : (2 : ℝ) ≠ 0 := by norm_num
  have key : ∀ (M M' : ℕ) (E E' : ℤ), 2 ^ p ≤ M → M' < 2 ^ (p + 1) →
      (M : ℝ) * 2 ^ E = M' * 2 ^ E' → E ≤ E' := by
    intro M M' E E' h1 h2' h
    by_contra hc
    have hE : E' + 1 ≤ E := by omega
    have a : (M' : ℝ) * 2 ^ E' < 2 ^ (p + 1) * 2 ^ E' := by
      apply mul_lt_mul_of_pos_right _ (by positivity); exact_mod_cast h2'
    have b : (2 : ℝ) ^ p * 2 ^ E ≤ M * 2 ^ E := by
      apply mul_le_mul_of_nonneg_right _ (by positivity); exact_mod_cast h1
    have c : (2 : ℝ) ^ (E' + 1) ≤ 2 ^ E := zpow_le_zpow_right₀ (by norm_num) hE
    rw [zpow_add_one₀ z] at c
    have d : (2 : ℝ) ^ (p + 1) * 2 ^ E' = 2 ^ p * (2 ^ E' * 2) := by rw [pow_succ]; ring
    have e : (2 : ℝ) ^ p * (2 ^ E' * 2) ≤ 2 ^ p * 2 ^ E := mul_le_mul_of_nonneg_left c (by positivity)
    linarith
  have hE : E = E' := le_antisymm (key M M' E E' h1 h2' h) (key M' M E' E h1' h2 h.symm)
  subst hE
  have := mul_right_cancel₀ (by positivity) h
  exact ⟨by exact_mod_cast this, rfl⟩

/-- The neighbours of a magnitude on its grid bound every other number of `p + 1` bits. -/
theorem grid_cases {f : FpFormat} {fl : ℕ} {k : ℤ} (hfl : 2 ^ f.fracBits ≤ fl) {c : ℝ}
    (hc : FpGrid f c) : |c| ≤ fl * 2 ^ k ∨ (fl + 1) * 2 ^ k ≤ |c| := by
  obtain ⟨m, e, _, h2, h3⟩ := hc
  rw [h3]
  exact (le_or_gt _ _).imp_right fun h => no_number_between f.fracBits fl k m e hfl h2 h

/-- Rounding a magnitude and putting the sign back is rounding the number (R435). -/
theorem fpRounds_of {f : FpFormat} {rm : RoundMode} {neg : Bool} {q : ℝ} {r : Rounded} {fl : ℕ} {k : ℤ}
    (hq : 0 < q) (R : Rounds f rm neg q r fl k) :
    FpRounds f rm (if neg then -q else q) (if neg then -(r.mant * 2 ^ r.scale) else r.mant * 2 ^ r.scale) := by
  obtain ⟨n, hn⟩ : ∃ n : ℝ, n = r.mant * 2 ^ r.scale := ⟨_, rfl⟩
  have hmp : (0 : ℝ) < r.mant := by exact_mod_cast lt_of_lt_of_le (by positivity) R.mantLow
  have hn0 : 0 < n := by rw [hn]; positivity
  have hU : (0 : ℝ) < 2 ^ k := by positivity
  have habs : ∀ x : ℝ, 0 < x → |if neg then -x else x| = x := fun x hx => by
    cases neg <;> simp [abs_of_pos hx]
  have key := fun (c : ℝ) (hc : FpGrid f c) => grid_cases (k := k) R.low hc
  have hgrid := R.grid
  have hbelow := R.below
  have habove := R.above
  have hexact := R.exact
  have hmode := R.mode
  rw [← hn] at hgrid hexact hmode ⊢
  refine ⟨⟨r.mant, r.scale, R.mantLow, R.mantHigh, by rw [habs n hn0, hn]⟩, ?_, ?_⟩
  · cases neg <;> simp <;> positivity
  -- a number of the grid on the far side, in magnitude
  cases rm
  · dsimp only at hmode ⊢
    intro c hc
    have hd : |(if neg then -q else q) - (if neg then -n else n)| = |q - n| := by
      cases neg
      · simp
      · simp only [if_true]; rw [show -q - -n = -(q - n) by ring, abs_neg]
    have hcd : |q - abs c| ≤ |(if neg then -q else q) - c| := by
      have := abs_abs_sub_abs_le (if neg then -q else q) c
      rwa [habs q hq] at this
    have hge : 2 ^ k / 2 ≤ |q - abs c| ∨ |q - n| ≤ |q - abs c| := by
      rcases key c hc with h | h
      · rcases hgrid with g | g
        · right
          rw [abs_of_nonneg (show 0 ≤ q - abs c by linarith), g, abs_of_nonneg (by linarith)]; linarith
        · left; rw [abs_of_nonneg (show 0 ≤ q - abs c by linarith)]
          have h1 := hmode.1
          rw [g, abs_of_neg (show q - (fl + 1) * 2 ^ k < 0 by linarith)] at h1
          linarith
      · rcases hgrid with g | g
        · left; rw [abs_of_neg (show q - abs c < 0 by linarith)]
          have h1 := hmode.1
          rw [g, abs_of_nonneg (show 0 ≤ q - fl * 2 ^ k by linarith)] at h1
          linarith
        · right
          rw [abs_of_neg (show q - abs c < 0 by linarith), g, abs_of_neg (by linarith)]; linarith
    rw [hd]
    have hle : |q - n| ≤ |q - abs c| := hge.elim (fun h => le_trans hmode.1 h) id
    refine ⟨hle.trans hcd, fun he hne m e h1 h2 h3 => ?_⟩
    rw [habs n hn0, hn] at h2
    have hu := normal_unique f.fracBits _ _ _ _ R.mantLow R.mantHigh h1 h3 h2
    rw [← hu.1]
    have heq : |q - abs c| = |q - n| := le_antisymm (he ▸ hcd) hle
    by_cases hcn : |c| = n
    · -- same magnitude: the other sign, which is farther
      exfalso
      have hc' : c = n ∨ c = -n := by
        rcases abs_choice c with h | h
        · left; rw [← hcn, h]
        · right; rw [← hcn, h]; ring
      cases neg
      · simp only [Bool.false_eq_true, if_false] at he hne
        rcases hc' with h | h
        · exact hne h
        · rw [h, show q - -n = q + n by ring, abs_of_pos (show 0 < q + n by linarith)] at he
          rcases abs_choice (q - n) with h' | h' <;> rw [h'] at he <;> linarith
      · simp only [if_true] at he hne
        rcases hc' with h | h
        · rw [h, show -q - n = -(q + n) by ring, abs_neg, abs_of_pos (show 0 < q + n by linarith)] at he
          rcases abs_choice (q - n) with h' | h' <;> rw [h'] at he <;> linarith
        · exact hne h
    · apply hmode.2
      rcases hge with h | _
      · exact le_antisymm hmode.1 (by rw [← heq]; exact h)
      · apply le_antisymm hmode.1
        rcases key c hc with h | h
        · rcases hgrid with g | g
          · exfalso
            rw [abs_of_nonneg (show 0 ≤ q - abs c by linarith), g, abs_of_nonneg (show 0 ≤ q - fl * 2 ^ k by linarith)] at heq
            exact hcn (by rw [g]; linarith)
          · rw [← heq, abs_of_nonneg (show 0 ≤ q - abs c by linarith)]
            have h1 := hmode.1
            rw [← heq, abs_of_nonneg (show 0 ≤ q - abs c by linarith)] at h1
            have h4 := heq
            rw [abs_of_nonneg (show 0 ≤ q - abs c by linarith), g, abs_of_neg (show q - (fl + 1) * 2 ^ k < 0 by linarith)] at h4
            linarith
        · rcases hgrid with g | g
          · have h4 := heq
            rw [abs_of_neg (show q - abs c < 0 by linarith), g, abs_of_nonneg (show 0 ≤ q - fl * 2 ^ k by linarith)] at h4
            rw [g, abs_of_nonneg (show 0 ≤ q - fl * 2 ^ k by linarith)]
            linarith
          · exfalso
            rw [abs_of_neg (show q - abs c < 0 by linarith), g, abs_of_neg (show q - (fl + 1) * 2 ^ k < 0 by linarith)] at heq
            exact hcn (by rw [g]; linarith)
  · dsimp only at hmode ⊢
    rw [habs n hn0, habs q hq]
    refine ⟨hmode, fun c hc hle => ?_⟩
    rcases key c hc with h | h
    · rcases hgrid with g | g <;> linarith
    · linarith
  · dsimp only at hmode ⊢
    cases neg
    · simp only [Bool.false_eq_true, if_false] at hmode ⊢
      refine ⟨hmode, fun c hc hle => ?_⟩
      have : |c| = c := abs_of_pos (by linarith)
      rcases key c hc with h | h
      · rw [this] at h
        have : fl * 2 ^ k = q := le_antisymm hbelow (by linarith)
        rw [hexact this]; exact hle
      · rw [this] at h; rcases hgrid with g | g <;> linarith
    · simp only [if_true] at hmode ⊢
      refine ⟨by linarith, fun c hc hle => ?_⟩
      by_cases hc0 : 0 ≤ c
      · linarith
      · have : |c| = -c := abs_of_neg (by linarith)
        rcases key c hc with h | h
        · rw [this] at h; rcases hgrid with g | g <;> linarith
        · rw [this] at h; linarith
  · dsimp only at hmode ⊢
    cases neg
    · simp only [Bool.false_eq_true, if_false] at hmode ⊢
      refine ⟨hmode, fun c hc hle => ?_⟩
      by_cases hc0 : c ≤ 0
      · linarith
      · have : |c| = c := abs_of_pos (by linarith)
        rcases key c hc with h | h
        · rw [this] at h; rcases hgrid with g | g <;> linarith
        · rw [this] at h; linarith
    · simp only [if_true] at hmode ⊢
      refine ⟨by linarith, fun c hc hle => ?_⟩
      have : |c| = -c := abs_of_neg (by linarith)
      rcases key c hc with h | h
      · rw [this] at h
        have : fl * 2 ^ k = q := le_antisymm hbelow (by linarith)
        rw [hexact this]; exact hle
      · rw [this] at h; rcases hgrid with g | g <;> linarith

/-- What one rounding answers, in every case (R433, R435). -/
theorem fpRound_spec (f : FpFormat) (env : FpEnv) (neg : Bool) (m : Nat) (e : ℤ) (sticky : Bool) (q : ℝ)
    (hm : 0 < m) (lo : (m : ℝ) * 2 ^ e ≤ q) (hi : q < ((m : ℝ) + 1) * 2 ^ e)
    (hs : sticky = true ↔ q ≠ m * 2 ^ e) (hp : sticky = true → f.fracBits + 2 ≤ m.log2) :
    ∃ n, FpOutcome f env (if neg then -q else q) neg n (fpRound f env neg m e sticky) := by
  have h2 : (2 : ℝ) ≠ 0 := by norm_num
  have h2' : (1 : ℝ) < 2 := by norm_num
  obtain ⟨fl, R⟩ := roundUnbounded_spec f env.rm neg m e sticky q hm lo hi hs hp
  obtain ⟨r, hr⟩ : ∃ r, r = roundUnbounded f env.rm neg m e sticky := ⟨_, rfl⟩
  rw [← hr] at R
  have hq : 0 < q := lt_of_lt_of_le (by have : (0 : ℝ) < m := by exact_mod_cast hm
                                        positivity) lo
  have hmp : (0 : ℝ) < r.mant := by exact_mod_cast lt_of_lt_of_le (by positivity) R.mantLow
  obtain ⟨n, hn⟩ : ∃ n : ℝ, n = r.mant * 2 ^ r.scale := ⟨_, rfl⟩
  have hn0 : 0 < n := by rw [hn]; positivity
  have habs : ∀ x : ℝ, 0 < x → |if neg then -x else x| = x := fun x hx => by
    cases neg <;> simp [abs_of_pos hx]
  -- the bounds of the rounded number by its leading exponent
  have nlo : (2 : ℝ) ^ (r.scale + f.fracBits) ≤ n := by
    rw [hn, zpow_add₀ h2, zpow_natCast, mul_comm]
    apply mul_le_mul_of_nonneg_right _ (by positivity); exact_mod_cast R.mantLow
  have nhi : n ≤ (2 ^ (f.fracBits + 1) - 1) * 2 ^ r.scale := by
    rw [hn]
    apply mul_le_mul_of_nonneg_right _ (by positivity)
    have : (r.mant : ℝ) + 1 ≤ 2 ^ (f.fracBits + 1) := by exact_mod_cast R.mantHigh
    linarith
  have nlt : n < 2 ^ (r.scale + f.fracBits + 1) := by
    rw [add_assoc, zpow_add₀ h2, mul_comm]
    refine lt_of_le_of_lt nhi ?_
    apply mul_lt_mul_of_pos_right _ (by positivity)
    have : ((2 : ℝ) ^ ((f.fracBits : ℤ) + 1)) = 2 ^ (f.fracBits + 1) := by
      rw [← zpow_natCast]; push_cast; rfl
    rw [this]; linarith
  have tiny_iff : n < fpLeast f ↔ r.scale + f.fracBits < 1 - (f.bias : ℤ) := by
    unfold fpLeast
    constructor
    · intro h
      exact (zpow_lt_zpow_iff_right₀ h2').1 (lt_of_le_of_lt nlo h)
    · intro h
      exact lt_of_lt_of_le nlt (zpow_le_zpow_right₀ h2'.le (by omega))
  have over_iff : fpGreatest f < n ↔ (f.bias : ℤ) < r.scale + f.fracBits := by
    unfold fpGreatest
    constructor
    · intro h
      by_contra hc
      refine absurd h (not_lt.2 (nhi.trans ?_))
      apply mul_le_mul_of_nonneg_left (zpow_le_zpow_right₀ h2'.le (by omega))
      have : (1 : ℝ) ≤ 2 ^ (f.fracBits + 1) := one_le_pow₀ h2'.le
      linarith
    · intro h
      have e1 : (2 : ℝ) ^ ((f.bias : ℤ) + 1) ≤ n := (zpow_le_zpow_right₀ h2'.le (by omega)).trans nlo
      refine lt_of_lt_of_le ?_ e1
      rw [show (f.bias : ℤ) + 1 = (f.fracBits + 1 : ℕ) + (f.bias - f.fracBits) by push_cast; ring,
        zpow_add₀ h2, zpow_natCast]
      apply mul_lt_mul_of_pos_right _ (by positivity)
      linarith
  have hlog : 2 ^ m.log2 ≤ m ∧ m < 2 ^ (m.log2 + 1) := ⟨Nat.log2_self_le hm.ne', Nat.lt_log2_self⟩
  have before_iff : q < fpLeast f ↔ m.log2 + e < 1 - (f.bias : ℤ) := by
    unfold fpLeast
    constructor
    · intro h
      refine (zpow_lt_zpow_iff_right₀ h2').1 (lt_of_le_of_lt (le_trans ?_ lo) h)
      rw [zpow_add₀ h2, zpow_natCast]
      apply mul_le_mul_of_nonneg_right _ (by positivity); exact_mod_cast hlog.1
    · intro h
      refine lt_of_lt_of_le hi (le_trans ?_ (zpow_le_zpow_right₀ h2'.le (show (m.log2 : ℤ) + e + 1 ≤ 1 - f.bias by omega)))
      rw [show (m.log2 : ℤ) + e + 1 = ((m.log2 + 1 : ℕ) : ℤ) + e by push_cast; ring, zpow_add₀ h2, zpow_natCast]
      apply mul_le_mul_of_nonneg_right _ (by positivity); exact_mod_cast hlog.2
  -- rounding does not cross the smallest normal downwards
  have up_tiny : n < fpLeast f → q < fpLeast f := by
    intro h
    by_contra hc
    have h1 : (1 : ℤ) - f.bias ≤ m.log2 + e := not_lt.1 (fun c => hc (before_iff.2 c))
    refine absurd h (not_lt.2 (le_trans (zpow_le_zpow_right₀ h2'.le h1) ?_))
    have e2 : (2 : ℝ) ^ ((m.log2 : ℤ) + e) ≤ fl * 2 ^ ((m.log2 : ℤ) + e - f.fracBits) := by
      conv_lhs => rw [show (m.log2 : ℤ) + e = (f.fracBits : ℕ) + (m.log2 + e - f.fracBits) by ring, zpow_add₀ h2, zpow_natCast]
      apply mul_le_mul_of_nonneg_right _ (by positivity); exact_mod_cast R.low
    refine e2.trans ?_
    rw [hn]
    have hU : (0 : ℝ) < 2 ^ ((m.log2 : ℤ) + e - f.fracBits) := by positivity
    rcases R.grid with g | g <;> rw [g] <;> linarith
  have tinyOut : FpTiny f env neg (fpTiny f env neg) := by
    unfold FpTiny fpTiny
    cases env.flush
    · simp
    · by_cases h : env.enable &&& 3#5 = 0#5
      · simp [h, show fpU ||| fpI = 3 from rfl, fpFlushed, fpZeroOf, fpSmallestNormal]
        cases env.rm <;> cases neg <;> rfl
      · simp [h, show fpU ||| fpI = 3 from rfl]
  have hround : fpRound f env neg m e sticky =
      if decide (r.scale + f.fracBits < 1 - (f.bias : ℤ)) ||
          (decide ((m.log2 : ℤ) + e < 1 - f.bias) && Config.tinyBeforeRounding env.draw) then fpTiny f env neg
      else if (f.bias : ℤ) < r.scale + f.fracBits then .value (fpOverflow f env.rm neg) (fpO ||| fpI)
      else .value (fpPack f neg (r.scale + f.fracBits + f.bias).toNat (r.mant - 2 ^ f.fracBits))
        (if r.inexact then fpI else 0) := by rw [hr]; rfl
  have least_le : fpLeast f ≤ fpGreatest f := by
    unfold fpLeast fpGreatest
    calc (2 : ℝ) ^ (1 - (f.bias : ℤ)) ≤ 2 ^ ((f.fracBits : ℤ) + (f.bias - f.fracBits)) :=
          zpow_le_zpow_right₀ h2'.le (by have := bias_pos f; omega)
      _ = 2 ^ f.fracBits * 2 ^ ((f.bias : ℤ) - f.fracBits) := by rw [zpow_add₀ h2, zpow_natCast]
      _ ≤ _ := by
          apply mul_le_mul_of_nonneg_right _ (by positivity)
          have : (1 : ℝ) ≤ 2 ^ f.fracBits := one_le_pow₀ h2'.le
          rw [pow_succ]; linarith
  have hi' : r.inexact = true ↔ n ≠ q := by rw [hn]; exact R.inexact
  refine ⟨if neg then -n else n, ?_, ?_, ?_, ?_, ?_, ?_⟩
  · cases neg <;> simp <;> linarith
  · rw [hn]; exact fpRounds_of hq R
  · rw [habs n hn0]
    intro h
    rw [hround, if_pos (by simp [tiny_iff.1 h])]
    exact tinyOut
  · rw [habs n hn0, habs q hq]
    intro h1 h2n
    have hl : r.scale + f.fracBits = 1 - (f.bias : ℤ) := by
      have a := not_lt.1 (fun c => (h2n.symm ▸ lt_irrefl n : ¬ n < fpLeast f) (tiny_iff.2 c))
      have b : r.scale + f.fracBits ≤ 1 - (f.bias : ℤ) := (zpow_le_zpow_iff_right₀ h2').1 (by rw [← show n = (2 : ℝ) ^ (1 - (f.bias : ℤ)) from h2n]; exact nlo)
      omega
    rw [hround]
    by_cases ht : Config.tinyBeforeRounding env.draw = true
    · left; rw [if_pos (by simp [ht, before_iff.1 h1])]; exact tinyOut
    · right
      have hb := bias_pos f
      rw [if_neg (by simp [ht]; omega), if_neg (by omega)]
      have hmant : r.mant = 2 ^ f.fracBits ∧ r.scale = r.scale := by
        refine normal_unique f.fracBits _ _ _ _ R.mantLow R.mantHigh (le_refl _) (Nat.pow_lt_pow_right (by norm_num) (by omega)) ?_
        rw [← hn, h2n, fpLeast, ← hl, zpow_add₀ h2, zpow_natCast]; push_cast; ring
      rw [hmant.1, hl, hi'.2 (by rw [h2n]; exact h1.ne')]
      simp; rfl
  · rw [habs n hn0, habs q hq]
    intro h1 h2n
    have a : ¬ (r.scale + f.fracBits < 1 - (f.bias : ℤ)) := fun c => absurd (up_tiny (tiny_iff.2 c)) (not_lt.2 h1)
    have b : ¬ ((m.log2 : ℤ) + e < 1 - f.bias) := fun c => absurd (before_iff.2 c) (not_lt.2 h1)
    have c : ¬ (f.bias : ℤ) < r.scale + f.fracBits := fun c => absurd (over_iff.2 c) (not_lt.2 h2n)
    have P := fpPack_normal f neg r.mant r.scale R.mantLow R.mantHigh (by omega) (by omega)
    rw [hround, if_neg (by simp; omega), if_neg c]
    refine ⟨_, _, rfl, P.1, ?_, ?_, ?_, ?_⟩
    · rw [fpNumber_eq, P.2.1, P.2.2.1, ← hn]; cases neg <;> simp
    · rintro rfl
      have hem := emax_bias FpFormat.single
      have hM := R.mantHigh
      have hx : (r.scale + (FpFormat.single.fracBits : ℤ) + FpFormat.single.bias).toNat < 2 ^ FpFormat.single.expBits := by
        have := emax_eq FpFormat.single
        omega
      rw [fpPack_toNat .single neg hx (by rw [pow_succ] at hM; omega)]
      simp only [FpFormat.fracBits, FpFormat.expBits] at *
      split_ifs <;> omega
    · intro h
      have : n = q := by cases neg <;> simpa using h
      have : r.inexact = false := by simpa [this] using hi'
      rw [this]; rfl
    · intro h
      have : n ≠ q := fun c => h (by rw [c])
      rw [hi'.2 this]; rfl
  · rw [habs n hn0]
    intro h
    have c := over_iff.1 h
    have h1 : ¬ q < fpLeast f := by
      intro hc
      have hk := before_iff.1 hc
      have : n ≤ fpLeast f := by
        have hU : (0 : ℝ) < 2 ^ ((m.log2 : ℤ) + e - f.fracBits) := by positivity
        have : n ≤ (fl + 1) * 2 ^ ((m.log2 : ℤ) + e - f.fracBits) := by
          rw [hn]; rcases R.grid with g | g <;> rw [g] <;> linarith
        refine this.trans ?_
        have hfl : ((fl : ℝ) + 1) ≤ 2 ^ (f.fracBits + 1) := by exact_mod_cast R.high
        calc _ ≤ (2 : ℝ) ^ (f.fracBits + 1) * 2 ^ ((m.log2 : ℤ) + e - f.fracBits) := mul_le_mul_of_nonneg_right hfl hU.le
          _ = 2 ^ ((m.log2 : ℤ) + e + 1) := by rw [← zpow_natCast, ← zpow_add₀ h2]; congr 1; push_cast; ring
          _ ≤ _ := zpow_le_zpow_right₀ h2'.le (by omega)
      linarith
    have hb := bias_pos f
    have h1' : ¬ ((m.log2 : ℤ) + e < 1 - f.bias) := fun c => h1 (before_iff.2 c)
    rw [hround, if_neg (by simp; omega), if_pos c]
    unfold fpOverflow fpInfinity fpLargest
    rw [show fpO ||| fpI = 5 from rfl]
    cases env.rm <;> cases neg <;> rfl

/-- An exactly representable magnitude is the result, whatever the mode (R436). -/
theorem fpRound_exact (f : FpFormat) (env : FpEnv) (m : Nat) (e : ℤ) (sticky : Bool) (c : Word)
    (hm : 0 < m) (hs : sticky = false) (hc : fpClass f c = .normal) (hw : f = .single → c.toNat < 2 ^ 32)
    (hq : (m : ℝ) * 2 ^ e = fpMagnitude f c) :
    fpRound f env (fpSign f c) m e sticky = .value c 0 := by
  subst hs
  obtain ⟨fl, R⟩ := roundUnbounded_spec f env.rm (fpSign f c) m e false (fpMagnitude f c) hm hq.le
    (by rw [← hq]; apply mul_lt_mul_of_pos_right _ (by positivity); linarith)
    (by simp [hq]) (by simp)
  have hM := fpMant_normal f c hc
  have hS := fpScale_bounds f c hc
  obtain ⟨r, hr⟩ : ∃ r, r = roundUnbounded f env.rm (fpSign f c) m e false := ⟨_, rfl⟩
  rw [← hr] at R
  -- the grid point below is the number itself
  have hfl : (fl : ℝ) * 2 ^ (m.log2 + e - f.fracBits : ℤ) = fpMagnitude f c := by
    rcases R.below.lt_or_eq with h | h
    · exact absurd (no_number_between f.fracBits fl _ _ _ R.low hM.2 h) (not_le.2 R.above)
    · exact h
  have hV : (r.mant : ℝ) * 2 ^ r.scale = fpMagnitude f c := R.exact hfl
  have hi : r.inexact = false := by
    have := R.inexact; rw [hV] at this; simpa using this
  have U := normal_unique f.fracBits r.mant (fpMant f c) r.scale (fpScale f c) R.mantLow R.mantHigh hM.1 hM.2 hV
  have L := normal_unique f.fracBits fl (fpMant f c) _ (fpScale f c) R.low R.high hM.1 hM.2 hfl
  have hc' := (fpClass_normal f c).1 hc
  unfold fpRound
  dsimp only
  rw [← hr, if_neg, if_neg]
  · rw [hi, U.1, U.2]
    rw [if_neg (by simp)]
    congr 1
    conv_rhs => rw [← fpPack_fields f c hw]
    congr 1
    · rw [fpScale, if_neg hc'.1]; omega
    · rw [fpMant, if_neg hc'.1]; omega
  · rw [U.2]; omega
  · rw [U.2]
    have := L.2
    simp; omega


/-! ### Exact values of operands -/

theorem fpOrdinary_iff {f : FpFormat} {v : Word} :
    fpOrdinary f v = true ↔ fpClass f v = .zero ∨ fpClass f v = .normal := by simp [fpOrdinary]

theorem fpSignedMant_spec (f : FpFormat) (a : Word) (e : ℤ) (h : e ≤ fpScale f a) :
    (fpSignedMant f a e : ℝ) * 2 ^ e = fpNumber f a := by
  have z : (2 : ℝ) ≠ 0 := by norm_num
  rw [fpNumber_eq, fpMagnitude, fpSignedMant]
  have : (2 : ℝ) ^ fpScale f a = 2 ^ (fpScale f a - e).toNat * 2 ^ e := by
    rw [← zpow_natCast, ← zpow_add₀ z]; congr 1; omega
  rw [this]
  split_ifs <;> push_cast <;> ring

theorem fpWithSign_fields (f : FpFormat) (v : Word) (neg : Bool) :
    fpSign f (fpWithSign f v neg) = neg ∧ fpExp f (fpWithSign f v neg) = fpExp f v ∧
      fpFrac f (fpWithSign f v neg) = fpFrac f v :=
  ⟨fpSign_pack f neg (fpExp_lt f v) (fpFrac_lt f v), fpExp_pack f neg (fpExp_lt f v) (fpFrac_lt f v),
    fpFrac_pack f neg (fpExp_lt f v) (fpFrac_lt f v)⟩

theorem fpWithSign_class (f : FpFormat) (v : Word) (neg : Bool) :
    fpClass f (fpWithSign f v neg) = fpClass f v := by
  have h := fpWithSign_fields f v neg
  simp only [fpClass, h.2.1, h.2.2]

theorem fpWithSign_magnitude (f : FpFormat) (v : Word) (neg : Bool) :
    fpMagnitude f (fpWithSign f v neg) = fpMagnitude f v := by
  have h := fpWithSign_fields f v neg
  simp only [fpMagnitude, fpMant, fpScale, h.2.1, h.2.2]

theorem fpWithSign_not (f : FpFormat) (v : Word) :
    fpNumber f (fpWithSign f v (!fpSign f v)) = -fpNumber f v := by
  rw [fpNumber_eq, fpNumber_eq, fpWithSign_magnitude, (fpWithSign_fields f v _).1]
  cases fpSign f v <;> simp

/-- The sign of a sum is the sign of the number. -/
theorem fpNumber_sign (f : FpFormat) (c : Word) (h : fpClass f c = .normal) :
    fpSign f c = true ↔ fpNumber f c < 0 := by
  have := fpMagnitude_pos f c h
  rw [fpNumber_eq]
  cases fpSign f c <;> simp <;> linarith

/-- The sum of two zero or normal operands is one rounding of the exact sum (R440). -/
theorem fpAdd_ordinary (f : FpFormat) (env : FpEnv) (a b : Word) (ha : fpClass f a = .zero ∨ fpClass f a = .normal)
    (hb : fpClass f b = .zero ∨ fpClass f b = .normal) : fpAdd f env a b = fpAddNumbers f env a b := by
  unfold fpAdd fpCheck2 fpIsNan
  rcases ha with ha | ha <;> rcases hb with hb | hb <;> simp [ha, hb]

theorem fpAddNumbers_spec (f : FpFormat) (env : FpEnv) (a b : Word) :
    (fpNumber f a + fpNumber f b = 0 ∧ fpAddNumbers f env a b = .value (fpZeroOf f
      (if fpSign f a = fpSign f b then fpSign f a else decide (env.rm = .down))) 0) ∨
    ∃ (m : ℕ) (e : ℤ), 0 < m ∧ (m : ℝ) * 2 ^ e = |fpNumber f a + fpNumber f b| ∧
      fpAddNumbers f env a b = fpRound f env (decide (fpNumber f a + fpNumber f b < 0)) m e false := by
  obtain ⟨e, he⟩ : ∃ e, e = min (fpScale f a) (fpScale f b) := ⟨_, rfl⟩
  obtain ⟨s, hs⟩ : ∃ s, s = fpSignedMant f a e + fpSignedMant f b e := ⟨_, rfl⟩
  have hU : (0 : ℝ) < 2 ^ e := by positivity
  have hsum : (s : ℝ) * 2 ^ e = fpNumber f a + fpNumber f b := by
    rw [← fpSignedMant_spec f a e (he ▸ min_le_left _ _), ← fpSignedMant_spec f b e (he ▸ min_le_right _ _), hs]
    push_cast; ring
  unfold fpAddNumbers
  dsimp only
  rw [← he, ← hs]
  by_cases h : s = 0
  · left; rw [if_pos h]; exact ⟨by rw [← hsum, h]; simp, rfl⟩
  · right
    refine ⟨s.natAbs, e, by omega, ?_, ?_⟩
    · rw [← hsum, abs_mul, abs_of_pos hU]; congr 1
      rw [← Int.cast_abs, Int.abs_eq_natAbs]; rfl
    · rw [if_neg h]; congr 1
      rw [← hsum, decide_eq_decide]
      constructor
      · intro hn; have : (s : ℝ) < 0 := by exact_mod_cast hn
        exact mul_neg_of_neg_of_pos this hU
      · intro hn
        have : (s : ℝ) < 0 := by by_contra hc; exact absurd hn (not_lt.2 (mul_nonneg (not_lt.1 hc) hU.le))
        exact_mod_cast this

/-- The product of two zero or normal operands (R442). -/
theorem fpMul_ordinary (f : FpFormat) (env : FpEnv) (a b : Word) (ha : fpClass f a = .zero ∨ fpClass f a = .normal)
    (hb : fpClass f b = .zero ∨ fpClass f b = .normal) :
    (fpNumber f a * fpNumber f b = 0 ∧
      fpMul f env a b = .value (fpZeroOf f (fpSign f a ^^ fpSign f b)) 0) ∨
    ∃ (m : ℕ) (e : ℤ), 0 < m ∧ (m : ℝ) * 2 ^ e = |fpNumber f a * fpNumber f b| ∧
      fpMul f env a b = fpRound f env (decide (fpNumber f a * fpNumber f b < 0)) m e false := by
  have z : (2 : ℝ) ≠ 0 := by norm_num
  have hz : ∀ v, fpClass f v = .zero → fpNumber f v = 0 := fun v h => by
    rw [fpNumber_eq, fpMagnitude_zero f v h]; simp
  by_cases h : fpClass f a = .zero ∨ fpClass f b = .zero
  · left
    refine ⟨by rcases h with h | h <;> simp [hz _ h], ?_⟩
    unfold fpMul fpCheck2 fpIsNan
    rcases ha with ha | ha <;> rcases hb with hb | hb <;> simp_all
  · right
    have ha' : fpClass f a = .normal := ha.resolve_left (fun c => h (.inl c))
    have hb' : fpClass f b = .normal := hb.resolve_left (fun c => h (.inr c))
    have pa := fpMagnitude_pos f a ha'
    have pb := fpMagnitude_pos f b hb'
    have ma := (fpMant_normal f a ha').1
    have mb := (fpMant_normal f b hb').1
    refine ⟨fpMant f a * fpMant f b, fpScale f a + fpScale f b, ?_, ?_, ?_⟩
    · exact Nat.mul_pos (lt_of_lt_of_le (by positivity) ma) (lt_of_lt_of_le (by positivity) mb)
    · rw [abs_mul, abs_fpNumber, abs_fpNumber, fpMagnitude, fpMagnitude, zpow_add₀ z]; push_cast; ring
    · have hs : decide (fpNumber f a * fpNumber f b < 0) = (fpSign f a ^^ fpSign f b) := by
        rw [fpNumber_eq, fpNumber_eq]
        have := mul_pos pa pb
        cases fpSign f a <;> cases fpSign f b <;> simp <;> nlinarith
      rw [hs]
      unfold fpMul fpCheck2 fpIsNan
      simp [ha', hb']

/-- The quotient of two zero or normal operands, the divisor not zero (R443). -/
theorem fpDiv_ordinary (f : FpFormat) (env : FpEnv) (a b : Word) (ha : fpClass f a = .zero ∨ fpClass f a = .normal)
    (hb : fpClass f b = .normal) :
    (fpNumber f a = 0 ∧ fpDiv f env a b = .value (fpZeroOf f (fpSign f a ^^ fpSign f b)) 0) ∨
    ∃ (m : ℕ) (e : ℤ) (sticky : Bool), 0 < m ∧ (m : ℝ) * 2 ^ e ≤ |fpNumber f a / fpNumber f b| ∧
      |fpNumber f a / fpNumber f b| < ((m : ℝ) + 1) * 2 ^ e ∧
      (sticky = true ↔ |fpNumber f a / fpNumber f b| ≠ (m : ℝ) * 2 ^ e) ∧
      f.fracBits + 2 ≤ m.log2 ∧
      fpDiv f env a b = fpRound f env (decide (fpNumber f a / fpNumber f b < 0)) m e sticky := by
  have z : (2 : ℝ) ≠ 0 := by norm_num
  rcases ha with ha | ha
  · left
    refine ⟨by rw [fpNumber_eq, fpMagnitude_zero f a ha]; simp, ?_⟩
    unfold fpDiv fpCheck2 fpIsNan; simp [ha, hb]
  · right
    have pa := fpMagnitude_pos f a ha
    have pb := fpMagnitude_pos f b hb
    have ma := fpMant_normal f a ha
    have mb := fpMant_normal f b hb
    obtain ⟨k, hk⟩ : ∃ k, k = 2 * f.fracBits + 8 := ⟨_, rfl⟩
    obtain ⟨n, hn⟩ : ∃ n, n = fpMant f a * 2 ^ k := ⟨_, rfl⟩
    obtain ⟨d, hd⟩ : ∃ d, d = fpMant f b := ⟨_, rfl⟩
    obtain ⟨E, hE⟩ : ∃ E : ℤ, E = fpScale f a - fpScale f b - k := ⟨_, rfl⟩
    have dpos : 0 < d := by rw [hd]; exact lt_of_lt_of_le (by positivity) mb.1
    have dq : (0 : ℝ) < d := by exact_mod_cast dpos
    have hU : (0 : ℝ) < 2 ^ E := by positivity
    have hq : |fpNumber f a / fpNumber f b| = (n : ℝ) / d * 2 ^ E := by
      rw [abs_div, abs_fpNumber, abs_fpNumber, fpMagnitude, fpMagnitude, hn, hE, ← hd]
      rw [zpow_sub₀ z, zpow_sub₀ z, zpow_natCast]; push_cast
      field_simp
    have hdm : (n : ℝ) = d * (n / d : ℕ) + (n % d : ℕ) := by exact_mod_cast (Nat.div_add_mod n d).symm
    have hlt : ((n % d : ℕ) : ℝ) < d := by exact_mod_cast Nat.mod_lt n dpos
    have hnn : (0 : ℝ) ≤ ((n % d : ℕ) : ℝ) := by positivity
    have lo : ((n / d : ℕ) : ℝ) ≤ n / d := by rw [le_div_iff₀ dq]; linarith
    have hi : (n : ℝ) / d < ((n / d : ℕ) : ℝ) + 1 := by rw [div_lt_iff₀ dq]; linarith
    have hbig : 2 ^ (f.fracBits + 7) ≤ n / d := by
      rw [Nat.le_div_iff_mul_le dpos, hn, hk, hd]
      calc 2 ^ (f.fracBits + 7) * fpMant f b ≤ 2 ^ (f.fracBits + 7) * 2 ^ (f.fracBits + 1) := Nat.mul_le_mul_left _ mb.2.le
        _ = 2 ^ (2 * f.fracBits + 8) := by rw [← pow_add]; congr 1; omega
        _ ≤ fpMant f a * 2 ^ (2 * f.fracBits + 8) := Nat.le_mul_of_pos_left _ (lt_of_lt_of_le (by positivity) ma.1)
    refine ⟨n / d, E, decide (n % d ≠ 0), lt_of_lt_of_le (by positivity) hbig, ?_, ?_, ?_, ?_, ?_⟩
    · rw [hq]; exact mul_le_mul_of_nonneg_right lo hU.le
    · rw [hq]; exact mul_lt_mul_of_pos_right hi hU
    · rw [hq, decide_eq_true_eq]
      refine not_congr ⟨fun h => ?_, fun h => ?_⟩
      · congr 1; rw [div_eq_iff dq.ne', hdm, h]; simp; ring_nf
      · have := mul_right_cancel₀ hU.ne' h
        rw [div_eq_iff dq.ne'] at this
        have : ((n % d : ℕ) : ℝ) = 0 := by linarith
        exact_mod_cast this
    · rw [Nat.le_log2 (by have : 0 < 2 ^ (f.fracBits + 7) := by positivity
                          omega)]
      exact le_trans (Nat.pow_le_pow_right (by norm_num) (by omega)) hbig
    · have hs : decide (fpNumber f a / fpNumber f b < 0) = (fpSign f a ^^ fpSign f b) := by
        rw [fpNumber_eq, fpNumber_eq]
        have := div_pos pa pb
        cases fpSign f a <;> cases fpSign f b <;> simp [div_neg, neg_div, neg_neg] <;> linarith
      rw [hs]
      unfold fpDiv fpCheck2 fpIsNan
      simp [ha, hb, hn, hk, hd, hE]

/-! ### Square root and conversions as one rounding -/

/-- The value of a sign and a magnitude. -/
theorem fpNumber_signed (f : FpFormat) (v : Word) :
    fpNumber f v = if fpSign f v then -fpMagnitude f v else fpMagnitude f v := by
  rw [fpNumber_eq]; cases fpSign f v <;> simp

/-- One rounding of an exact magnitude `m * 2^e` with a sign. -/
theorem fpRound_outcome (f : FpFormat) (env : FpEnv) (m : Nat) (e : ℤ) (q : ℝ) (hm : 0 < m)
    (hq : (m : ℝ) * 2 ^ e = |q|) : ∃ neg n, FpOutcome f env q neg n (fpRound f env (decide (q < 0)) m e false) := by
  obtain ⟨n, h⟩ := fpRound_spec f env (decide (q < 0)) m e false |q| hm hq.le
    (by rw [← hq]; apply mul_lt_mul_of_pos_right _ (by positivity); linarith) (by simp [hq]) (by simp)
  have : (if decide (q < 0) = true then -|q| else |q|) = q := by
    by_cases c : q < 0
    · simp [c, abs_of_neg c]
    · simp [c, abs_of_nonneg (not_lt.1 c)]
  rw [this] at h
  exact ⟨_, n, h⟩

/-- The integer square root found bit by bit. -/
theorem isqrtFrom_spec (n : Nat) (k acc : Nat) (lo : acc * acc ≤ n) (hi : n < (acc + 2 ^ k) * (acc + 2 ^ k)) :
    isqrtFrom n k acc * isqrtFrom n k acc ≤ n ∧ n < (isqrtFrom n k acc + 1) * (isqrtFrom n k acc + 1) := by
  induction k generalizing acc with
  | zero => exact ⟨lo, by simpa [isqrtFrom] using hi⟩
  | succ k ih =>
    rw [isqrtFrom]
    split
    · next h => exact ih _ h (by rw [pow_succ] at hi; rwa [show acc + 2 ^ k + 2 ^ k = acc + 2 ^ k * 2 by ring])
    · next h => exact ih _ lo (not_le.1 h)

theorem isqrt_spec (n : Nat) : isqrt n * isqrt n ≤ n ∧ n < (isqrt n + 1) * (isqrt n + 1) := by
  refine isqrtFrom_spec n _ 0 (by simp) ?_
  rw [Nat.zero_add, ← pow_add]
  rcases Nat.eq_zero_or_pos n with h | h
  · subst h; simp
  · exact lt_of_lt_of_le Nat.lt_log2_self (Nat.pow_le_pow_right (by norm_num) (by omega))

/-- The square root of a positive normal operand (R444). -/
theorem fpSqrt_normal (f : FpFormat) (env : FpEnv) (a : Word) (ha : fpClass f a = .normal)
    (hs : fpSign f a = false) :
    ∃ neg n, FpOutcome f env (Real.sqrt (fpNumber f a)) neg n (fpSqrt f env a) := by
  have z : (2 : ℝ) ≠ 0 := by norm_num
  obtain ⟨m, hm⟩ : ∃ m, m = fpMant f a := ⟨_, rfl⟩
  obtain ⟨e, he⟩ : ∃ e, e = fpScale f a := ⟨_, rfl⟩
  have hmb := fpMant_normal f a ha
  rw [← hm] at hmb
  have hnum : fpNumber f a = m * 2 ^ e := by rw [fpNumber_signed, hs, if_neg (by simp), hm, he]; rfl
  obtain ⟨k, hk⟩ : ∃ k, k = f.fracBits + 4 := ⟨_, rfl⟩
  -- an even exponent
  obtain ⟨m', e', hm', he', heq, hge⟩ : ∃ (m' : ℕ) (e' : ℤ), m' = (if e % 2 ≠ 0 then 2 * m else m) ∧
      e' = (if e % 2 ≠ 0 then e - 1 else e) / 2 ∧ (m : ℝ) * 2 ^ e = m' * 2 ^ (2 * e') ∧ m ≤ m' := by
    refine ⟨_, _, rfl, rfl, ?_, ?_⟩
    · by_cases h : e % 2 ≠ 0
      · rw [if_pos h, if_pos h, show 2 * ((e - 1) / 2) = e - 1 by omega, zpow_sub_one₀ z]; push_cast; field_simp
      · rw [if_neg h, if_neg h, show 2 * (e / 2) = e by omega]
    · split_ifs <;> omega
  obtain ⟨N, hN⟩ : ∃ N, N = m' * 2 ^ (2 * k) := ⟨_, rfl⟩
  have S := isqrt_spec N
  obtain ⟨r, hr⟩ : ∃ r, r = isqrt N := ⟨_, rfl⟩
  rw [← hr] at S
  have hU : (0 : ℝ) < 2 ^ (e' - k) := by positivity
  have hsq : Real.sqrt (fpNumber f a) = Real.sqrt N * 2 ^ (e' - k) := by
    rw [hnum, heq, hN]
    have : (m' : ℝ) * 2 ^ (2 * e') = ((m' * 2 ^ (2 * k) : ℕ) : ℝ) * (2 ^ (e' - k)) ^ 2 := by
      push_cast
      rw [← zpow_natCast (2 : ℝ) (2 * k), ← zpow_natCast ((2 : ℝ) ^ (e' - k)), ← zpow_mul, mul_assoc, ← zpow_add₀ z]
      congr 2; push_cast; ring
    rw [this, Real.sqrt_mul (by positivity), Real.sqrt_sq hU.le]
  have lo : (r : ℝ) ≤ Real.sqrt N := Real.le_sqrt_of_sq_le (by rw [sq]; exact_mod_cast S.1)
  have hi : Real.sqrt N < r + 1 := (Real.sqrt_lt' (by positivity)).2 (by rw [sq]; exact_mod_cast S.2)
  have hbig : 2 ^ (f.fracBits + 2) ≤ r := by
    by_contra hc
    have hc := not_le.1 hc
    have h1 : (r + 1) * (r + 1) ≤ 2 ^ (f.fracBits + 2) * 2 ^ (f.fracBits + 2) := Nat.mul_le_mul hc hc
    have h2 : 2 ^ (f.fracBits + 2) * 2 ^ (f.fracBits + 2) ≤ N := by
      rw [hN, hk, ← pow_add]
      calc 2 ^ (f.fracBits + 2 + (f.fracBits + 2)) ≤ 2 ^ (2 * (f.fracBits + 4)) := Nat.pow_le_pow_right (by norm_num) (by omega)
        _ ≤ m' * 2 ^ (2 * (f.fracBits + 4)) := Nat.le_mul_of_pos_left _ (lt_of_lt_of_le (by positivity) (hmb.1.trans hge))
    omega
  have hdef : fpSqrt f env a = fpRound f env false r (e' - k) (decide (r * r ≠ N)) := by
    unfold fpSqrt fpCheck1 fpIsNan fpSqrtNumber
    simp only [ha, hs, ← hm, ← he]
    simp [hr, hN, hm', he', hk]
  rw [hdef]
  obtain ⟨n, h⟩ := fpRound_spec f env false r (e' - k) (decide (r * r ≠ N)) (Real.sqrt (fpNumber f a))
    (lt_of_lt_of_le (by positivity) hbig) (by rw [hsq]; exact mul_le_mul_of_nonneg_right lo hU.le)
    (by rw [hsq]; exact mul_lt_mul_of_pos_right hi hU) (by
      rw [hsq, decide_eq_true_eq]
      refine not_congr ⟨fun h => ?_, fun h => ?_⟩
      · congr 1; rw [← h]; push_cast; exact Real.sqrt_mul_self (by positivity)
      · have h := mul_right_cancel₀ hU.ne' h
        have : (r : ℝ) * r = N := by rw [← h]; exact Real.mul_self_sqrt (by positivity)
        exact_mod_cast this) (fun _ => by
      rw [Nat.le_log2 (by have : 0 < 2 ^ (f.fracBits + 2) := by positivity
                          omega)]
      exact hbig)
  exact ⟨false, n, h⟩

/-- A conversion between formats of a zero or normal operand is one rounding (R456, R457). -/
theorem fpConvert_ordinary (g f : FpFormat) (env : FpEnv) (a : Word) (ha : fpClass g a = .normal) :
    ∃ neg n, FpOutcome f env (fpNumber g a) neg n (fpConvert g f env a) := by
  have hm := fpMant_normal g a ha
  have hs : decide (fpNumber g a < 0) = fpSign g a := by
    rw [Bool.eq_iff_iff, decide_eq_true_eq]; exact (fpNumber_sign g a ha).symm
  have := fpRound_outcome f env (fpMant g a) (fpScale g a) (fpNumber g a) (lt_of_lt_of_le (by positivity) hm.1)
    (abs_fpNumber g a).symm
  rw [hs] at this
  unfold fpConvert fpCheck1 fpIsNan
  simpa [ha] using this

/-- An integer is rounded once (R456, R457). -/
theorem fpOfInt_spec (f : FpFormat) (env : FpEnv) (i : ℤ) (hi : i ≠ 0) :
    ∃ neg n, FpOutcome f env (i : ℝ) neg n (fpOfInt f env i) := by
  have := fpRound_outcome f env i.natAbs 0 (i : ℝ) (by omega)
    (by rw [zpow_zero, mul_one, ← Int.cast_abs, Int.abs_eq_natAbs]; rfl)
  unfold fpOfInt
  rw [if_neg hi]
  simpa using this

/-- A number rounded to an integer (R448 to R455). -/
theorem fpToInt_spec (f : FpFormat) (rm : RoundMode) (a : Word) :
    FpRoundsInt rm (fpNumber f a) (fpToInt f rm a).1 ∧
      ((fpToInt f rm a).2 = true ↔ ((fpToInt f rm a).1 : ℝ) ≠ fpNumber f a) := by
  have z : (2 : ℝ) ≠ 0 := by norm_num
  obtain ⟨q, hq⟩ : ∃ q : Nat × Bool, q = if 0 ≤ fpScale f a then (fpMant f a * 2 ^ (fpScale f a).toNat, false)
    else roundQuotient rm (fpSign f a) (fpMant f a) (-fpScale f a).toNat false := ⟨_, rfl⟩
  have hdef : fpToInt f rm a = (if fpSign f a then -(q.1 : ℤ) else q.1, q.2) := by rw [hq]; rfl
  have hmag : (fpMagnitude f a) = (fpMant f a : ℝ) * 2 ^ fpScale f a := rfl
  have hnn := fpMagnitude_nonneg f a
  -- the rounded magnitude
  have key : (q.2 = true ↔ (q.1 : ℝ) ≠ fpMagnitude f a) ∧ |fpMagnitude f a - q.1| < 1 ∧ match rm with
      | .nearest => |fpMagnitude f a - q.1| ≤ 1 / 2 ∧ (|fpMagnitude f a - q.1| = 1 / 2 → q.1 % 2 = 0)
      | .towardZero => (q.1 : ℝ) ≤ fpMagnitude f a
      | .up => if fpSign f a then (q.1 : ℝ) ≤ fpMagnitude f a else fpMagnitude f a ≤ q.1
      | .down => if fpSign f a then fpMagnitude f a ≤ q.1 else (q.1 : ℝ) ≤ fpMagnitude f a := by
    by_cases h : 0 ≤ fpScale f a
    · rw [if_pos h] at hq
      have : (q.1 : ℝ) = fpMagnitude f a := by
        rw [hq, hmag]; push_cast; congr 1
        rw [← zpow_natCast, Int.toNat_of_nonneg h]
      rw [this]
      refine ⟨by rw [hq]; simp, by simp, ?_⟩
      cases rm <;> simp
    · rw [if_neg h] at hq
      have R := roundQuotient_spec rm (fpSign f a) (fpMant f a) (-fpScale f a).toNat false (fpMant f a : ℝ) le_rfl (by linarith) (by simp) (by simp)
      have hy : (fpMant f a : ℝ) / 2 ^ (-fpScale f a).toNat = fpMagnitude f a := by
        rw [hmag, div_eq_mul_inv, ← zpow_natCast, Int.toNat_of_nonneg (by omega), ← zpow_neg, neg_neg]
      simp only [← hq, hy] at R
      obtain ⟨R1, R2, R3, R4, R5, R6⟩ := R
      refine ⟨R4, ?_, by cases rm <;> exact R6⟩
      rw [abs_lt]
      rcases R3 with h | h
      · rw [h]; constructor <;> linarith
      · rw [h]; push_cast
        constructor
        · rcases R1.lt_or_eq with h' | h'
          · linarith
          · exact absurd (R5 h') (by omega)
        · linarith
  obtain ⟨k1, k2, k3⟩ := key
  rw [hdef, fpNumber_signed]
  rw [abs_lt] at k2
  constructor
  · cases hsg : fpSign f a <;> simp only [hsg, if_true, Bool.false_eq_true, if_false] at k3 ⊢
    · cases rm <;> dsimp only at k3 <;> simp only [FpRoundsInt, Int.cast_natCast]
      · exact ⟨k3.1, fun h => by have := k3.2 h; omega⟩
      · rw [abs_of_nonneg hnn, abs_of_nonneg (by positivity)]
        exact ⟨by positivity, k3, by linarith⟩
      · exact ⟨k3, by linarith⟩
      · exact ⟨k3, by linarith⟩
    · have e : ∀ x y : ℝ, |-x - -y| = |x - y| := fun x y => by rw [show -x - -y = -(x - y) by ring, abs_neg]
      cases rm <;> dsimp only at k3 <;> simp only [FpRoundsInt, Int.cast_neg, Int.cast_natCast]
      · rw [e]; exact ⟨k3.1, fun h => by have := k3.2 h; omega⟩
      · rw [abs_neg, abs_neg, abs_of_nonneg hnn, abs_of_nonneg (by positivity)]
        refine ⟨?_, k3, by linarith⟩
        have : (0 : ℝ) ≤ q.1 := by positivity
        nlinarith
      · exact ⟨by linarith, by linarith⟩
      · exact ⟨by linarith, by linarith⟩
  · rw [k1]
    cases fpSign f a <;> simp

/-- The rounded integer is unique. -/
theorem fpRoundsInt_unique {rm : RoundMode} {q : ℝ} {n m : ℤ} (hn : FpRoundsInt rm q n)
    (hm : FpRoundsInt rm q m) : n = m := by
  have close : ∀ a b : ℤ, (a : ℝ) - b < 1 → (b : ℝ) - a < 1 → a = b := fun a b h1 h2 => by
    have h1 : a - b < 1 := by exact_mod_cast h1
    have h2 : b - a < 1 := by exact_mod_cast h2
    omega
  cases rm <;> simp only [FpRoundsInt] at hn hm
  · obtain ⟨n1, n2⟩ := hn
    obtain ⟨m1, m2⟩ := hm
    have hb : |(n : ℝ) - m| ≤ 1 := by
      calc |(n : ℝ) - m| = |(q - m) - (q - n)| := by congr 1; ring
        _ ≤ |q - m| + |q - n| := abs_sub _ _
        _ ≤ 1 := by linarith
    have hb' : |n - m| ≤ 1 := by exact_mod_cast hb
    by_contra hne
    have h1 : |n - m| = 1 := by
      have : |n - m| ≠ 0 := by simpa [sub_eq_zero] using hne
      have := abs_nonneg (n - m); omega
    have h1r : |(n : ℝ) - m| = 1 := by exact_mod_cast h1
    have hs : |(n : ℝ) - m| ≤ |q - m| + |q - n| := by
      calc |(n : ℝ) - m| = |(q - m) - (q - n)| := by congr 1; ring
        _ ≤ _ := abs_sub _ _
    have := n2 (by linarith)
    have := m2 (by linarith)
    rcases abs_choice (n - m) with h | h <;> omega
  · obtain ⟨n1, n2, n3⟩ := hn
    obtain ⟨m1, m2, m3⟩ := hm
    rcases lt_trichotomy q 0 with hq | hq | hq
    · have an : |(n : ℝ)| = -n := abs_of_nonpos (by nlinarith)
      have am : |(m : ℝ)| = -m := abs_of_nonpos (by nlinarith)
      rw [an] at n2 n3; rw [am] at m2 m3
      exact close _ _ (by linarith) (by linarith)
    · subst hq
      rw [abs_zero] at n2 m2
      have := abs_nonneg (n : ℝ)
      have := abs_nonneg (m : ℝ)
      have h1 : (n : ℝ) = 0 := abs_eq_zero.1 (by linarith)
      have h2 : (m : ℝ) = 0 := abs_eq_zero.1 (by linarith)
      exact_mod_cast h1.trans h2.symm
    · have an : |(n : ℝ)| = n := abs_of_nonneg (by nlinarith)
      have am : |(m : ℝ)| = m := abs_of_nonneg (by nlinarith)
      rw [an] at n2 n3; rw [am] at m2 m3
      exact close _ _ (by linarith) (by linarith)
  · exact close _ _ (by linarith) (by linarith)
  · exact close _ _ (by linarith) (by linarith)

/-! ### Patterns that are not numbers (R431, R435) -/

/-- A generated quiet NaN is one, with the sign asked for. -/
theorem fpQuietNan_spec (f : FpFormat) (neg : Bool) (bits : Word) :
    fpClass f (fpQuietNan f neg bits) = .quietNan ∧ fpSign f (fpQuietNan f neg bits) = neg := by
  have hp : 0 < 2 ^ (f.fracBits - 1) - 1 := by cases f <;> decide
  obtain ⟨k, h0, h1, h2⟩ :
      ∃ k, 0 < k ∧ k < 2 ^ (f.fracBits - 1) ∧ fpQuietNan f neg bits = fpPack f neg f.emax k := by
    unfold fpQuietNan
    dsimp only
    refine ⟨_, ?_, ?_, rfl⟩
    · split_ifs <;> omega
    · have := Nat.mod_lt bits.toNat (show 0 < 2 ^ (f.fracBits - 1) by positivity)
      split_ifs <;> omega
  have hlt : k < 2 ^ f.fracBits := lt_of_lt_of_le h1 (Nat.pow_le_pow_right (by norm_num) (by omega))
  have he : f.emax < 2 ^ f.expBits := by cases f <;> decide
  rw [h2]
  refine ⟨?_, fpSign_pack f neg he hlt⟩
  unfold fpClass
  rw [fpExp_pack f neg he hlt, fpFrac_pack f neg he hlt]
  have : f.emax ≠ 0 := by cases f <;> decide
  simp [this, h1]; omega

/-- An infinity with its sign set is the infinity of that sign. -/
theorem fpWithSign_infinity {f : FpFormat} {v : Word} (h : fpClass f v = .infinity) (neg : Bool) :
    fpWithSign f v neg = fpInfinity f neg := by
  unfold fpClass at h
  unfold fpWithSign fpInfinity
  split_ifs at h <;> simp_all

end Sys2Proof.Machine
end

