-- ==== Sys2Proof/Tests/Slice0.lean ====
section
/-! SUPPORT. Tests: ill-formed terms refused, words decoded, small vectors of the spec, and one
witness for the hypotheses of every statement. The expected values are those of
95_test_vectors.md, 96_test_vectors_instructions.md and 97_test_vectors_system.md. -/

namespace Sys2Proof.Tests
open Sys2Proof.Machine

/-! ### Helpers -/

/-- Kernel mode, coprocessor 1 usable, 32 full registers, a mapped-free pc. -/
def base : State :=
  { State.reset with cp0 := { Cp0.reset with status := 0x24000000 }, pc := 0xFFFFFFFF80000100 }

/-- A test of every row of a table. -/
def every {R : Type} (p : R → Bool) (rows : List R) : Bool := rows.all p

/-- A property of the next state. -/
def after (o : Out) (p : State → Bool) : Bool :=
  match o with
  | .next s => p s
  | .fault _ => false
  | .refused _ => false

/-- The kind of the pending fault. -/
def kindIs (k : FaultKind) (s : State) : Bool := s.pending.any fun p => decide (p.kind = k)

/-- Run one word. -/
def run (w : Nat) (s : State) : Out := runFetched (.word (BitVec.ofNat 32 w)) s

/-- The decoder reads the word as the instruction, and the instruction is well formed. -/
def reads (r : Nat × Instr) : Bool := decide (decodeTableWord 32 r.1 = some r.2) && r.2.wf

/-- No instruction is read. -/
def rejects (w : Nat) : Bool := decide (decodeTableWord 32 w = none)

/-- The check refuses the term. -/
def illFormed (i : Instr) : Bool := !i.wf

/-- `x[d]` after a word with `x[1]` and `x[2]`; an overflow leaves it. -/
def gprAfter (d : Reg) (r : Nat × Word × Word × Option Word) : Bool :=
  let s := (base.setGpr 1 r.2.1).setGpr 2 r.2.2.1
  after (run r.1 s) fun t =>
    match r.2.2.2 with
    | some v => decide (t.readGpr d = v) && decide (t.pending = none)
    | none => kindIs .arithmeticOverflow t && decide (t.readGpr d = s.readGpr d)

/-- HI and LO after a word. -/
def hiLoAfter (r : Nat × Word × Word × Word × Word) : Bool :=
  after (run r.1 ((base.setGpr 1 r.2.1).setGpr 2 r.2.2.1)) fun t =>
    decide (t.hi = r.2.2.2.1) && decide (t.lo = r.2.2.2.2)

/-- The pending target and the link after a word at a pc with a register and `x[2]`. -/
def branchAfter (r : Nat × Word × Reg × Word × Word × Option Word × Option Word) : Bool :=
  let s := { (base.setGpr 2 r.2.2.2.2.1).setGpr r.2.2.1 r.2.2.2.1 with pc := r.2.1 }
  after (run r.1 s) fun t =>
    decide (t.br.map BranchPending.target = r.2.2.2.2.2.1) &&
      decide (t.pc = if t.br.isSome then r.2.1 + 4 else r.2.1 + 8) &&
      r.2.2.2.2.2.2.all fun v => decide (t.readGpr 31 = v || t.readGpr r.2.2.1 = v)

/-- The eight bytes of section 2.7 at `A`, with `x[1] = A`. -/
def loaded : State :=
  ({ base with mem := Memory.write [] 0x100 8 0x8192A3B4C5D6E7F8 }.setGpr 1
    0xFFFFFFFFA0000100).setGpr 2 0xAAAAAAAABBCCDDEE

/-- The load that is pending. -/
def loads (r : Instr × Word) : Bool :=
  after (exec r.1 loaded) fun t => decide (t.ld = some ⟨2, r.2⟩)

/-- The load a word leaves pending. -/
def loadAfter (r : Nat × Word) : Bool := after (run r.1 loaded) fun t => decide (t.ld = some ⟨2, r.2⟩)

/-- The eight bytes at `A`, as written from an address on. -/
def bytesAre (t : State) (a : Nat) (bs : List Byte) : Bool :=
  (List.range 8).all fun k =>
    decide (Memory.byteAt t.mem (0x100 + k) =
      if a ≤ 0x100 + k ∧ 0x100 + k < a + bs.length then bs[0x100 + k - a]?
      else Memory.byteAt loaded.mem (0x100 + k))

/-- The bytes an instruction writes, with `x[2] = 0x0102030405060708`. -/
def stores (r : Instr × Nat × List Byte) : Bool :=
  after (exec r.1 (loaded.setGpr 2 0x0102030405060708)) fun t => bytesAre t r.2.1 r.2.2

/-- The bytes a word writes. -/
def storesWord (r : Nat × Nat × List Byte) : Bool :=
  after (run r.1 (loaded.setGpr 2 0x0102030405060708)) fun t => bytesAre t r.2.1 r.2.2

/-- A misaligned access, its address recorded. -/
def misaligned (r : Instr × Intent) : Bool :=
  after (exec r.1 loaded) fun t => kindIs (.addressError r.2) t && decide (t.mem = loaded.mem) &&
    t.pending.all fun p => p.badvaddr.all fun v => decide (0xFFFFFFFFA0000100 < v)

/-- Whether a word traps with `x[1]`, `x[2]`. -/
def trapsAfter (r : Nat × Word × Word × Bool) : Bool :=
  after (run r.1 ((base.setGpr 1 r.2.1).setGpr 2 r.2.2.1)) fun t =>
    if r.2.2.2 then kindIs .trap t else decide (t.pending = none ∧ t.pc = base.pc + 4)

/-- The result (when it fills the register) and FCR31 of a word on `f[4]`, `f[6]` under a mode. -/
def fpAfter (wide : Bool) (r : Nat × Word × Word × Nat × Option Word × Nat) : Bool :=
  let f := BitVec.ofNat 32 r.2.2.2.1
  let x := BitVec.ofNat 32 r.2.2.2.2.2
  after (run r.1 (({ base with fcr31 := f }.setFpr 4 r.2.1).setFpr 6 r.2.2.1)) fun t =>
    match r.2.2.2.2.1 with
    | some v => decide (t.pending = none) && decide (t.fcr31 = f ||| x <<< 12 ||| x <<< 2) &&
        (!wide || decide (t.readFpr 2 = v))
    | none => kindIs .floatingPoint t && decide (t.fcr31 = f ||| 0x20000) && decide (t.readFpr 2 = 0)

/-- The environment of a mode. -/
def env (rm : RoundMode) : FpEnv := ⟨rm, false, 0, 0⟩

/-- A result and its exceptions. -/
def fpGives (r : FpResult × Word × Nat) : Bool :=
  decide ((match r.1 with
    | .value v x => some (v.extractLsb' 0 32, x)
    | .unimplemented => none) = some (r.2.1.extractLsb' 0 32, BitVec.ofNat 5 r.2.2))

/-- The condition after a compare of two values, and FCR31 beside it. -/
def condition (w : Nat) (a b : Word) (c v : Bool) : Bool :=
  after (run w ((base.setFpr 4 a).setFpr 6 b)) fun t =>
    decide (t.fcr31 = (if c then 0x800000 else 0) ||| if v then 0x10040 else 0)

/-- The three conditions of a compare word, in single and in double. -/
def compareAfter (r : Nat × Bool × Bool × Bool × Bool) : Bool :=
  condition r.1 0x3F800000 0x40000000 r.2.1 false &&
    condition (r.1 + 0x200000) 0x4000000000000000 0x3FF0000000000000 r.2.2.1 false &&
    condition r.1 0x3F800000 0x7FC00000 r.2.2.2.1 r.2.2.2.2

/-- A system-control register after all ones are written. -/
def cp0After (r : Nat × Reg × Word) : Bool :=
  after (run r.1 (base.setGpr 1 0xFFFFFFFFFFFFFFFF)) fun t =>
    if r.2.1 ∈ [2#5, 3#5, 4#5, 8#5, 10#5, 14#5, 20#5, 30#5] then decide (t.readCp0Wide r.2.1 = r.2.2)
    else decide ((t.readCp0Narrow r.2.1).signExtend 64 = r.2.2)

/-- EPC, Cause, Status and pc after the dispatch of a fault. -/
def entryAfter
    (r : BitVec 32 × FaultKind × BitVec 2 × Bool × Word × BitVec 32 × BitVec 32 × Word) : Bool :=
  let p : PendingFault := ⟨r.2.1, r.2.2.1, some 0x401004, r.2.2.2.1, 0xFFFFFFFF80001000⟩
  let t := State.dispatch
    { base with cp0 := { base.cp0 with status := r.1, epc := 0x55 }, pending := some p }
  decide (t.cp0.epc = r.2.2.2.2.1 ∧ t.cause = r.2.2.2.2.2.1 ∧ t.cp0.status = r.2.2.2.2.2.2.1 ∧
    t.pc = r.2.2.2.2.2.2.2 ∧ t.pending = none)

/-- Whether an interrupt is taken. -/
def interruptAfter (r : BitVec 32 × BitVec 8 × Bool) : Bool :=
  let b := fun i => r.2.1.getLsbD i
  let s := { base with
    cp0 := { base.cp0 with status := r.1, cause := (r.2.1.setWidth 32 &&& 3) <<< 8 }
    irq := ⟨b 2, b 3, b 4, b 5, b 6, b 7⟩ }
  s.interruptCondition == r.2.2

/-- Whether Count moving on sets the timer latch. -/
def timerAfter (r : BitVec 32 × BitVec 32 × Nat × Bool) : Bool :=
  timerFires r.1 r.2.1 r.2.2.1 == r.2.2.2

/-- The TLB of section 2.10, with ASID 5. -/
def mapped : State :=
  { base with
    tlb := (base.tlb.set 3 ⟨0, 0x200, 0, 5, false, 0x20, 0, true, true, 0x21, 0, false, true⟩).set 4
      ⟨0, 0x8004, 3, 5, false, 0x100, 0, true, true, 0x205, 0, true, true⟩
    cp0 := { base.cp0 with entryHi := 5, status := 0 } }

/-- What an address translates to under a Status. -/
def translates (r : BitVec 32 × Word × Intent × Translation) : Bool :=
  decide ({ mapped with cp0 := { mapped.cp0 with status := r.1 } }.translate r.2.1 r.2.2.1 = r.2.2.2)

/-! ### Ill-formed terms are refused, their neighbours are not -/

theorem test_wf_shift : every illFormed [.sll 1 2 32, .srl 1 2 32, .sra 1 2 32, .dsll 1 2 32,
    .dsrl 1 2 32, .dsra 1 2 32, .dsll32 1 2 32, .dsrl32 1 2 32, .dsra32 1 2 32] = true := by
  decide
theorem test_wf_call : every illFormed [.syscall (2 ^ 20), .brk (2 ^ 20)] = true := by decide
theorem test_wf_trap : every illFormed [.tge 1 2 1024, .tgeu 1 2 1024, .tlt 1 2 1024, .tltu 1 2 1024,
    .teq 1 2 1024, .tne 1 2 1024] = true := by decide
theorem test_wf_cache : (Instr.cache 32 1 0).wf = false := by decide
theorem test_wf_cop2 : (Instr.cop2 (2 ^ 26)).wf = false := by decide
theorem test_wf_bounds : every Instr.wf [.sll 1 2 31, .dsra32 1 2 31, .syscall (2 ^ 20 - 1),
    .brk (2 ^ 20 - 1), .teq 1 2 1023, .cache 31 1 0, .cop2 (2 ^ 26 - 1)] = true := by decide


/-! ### Decoding: every row of the opcode table -/

/-- The rows of the major map, each operand field at a value of its own: rs 17, rt 10, rd 21, shift 6
(30_encoding.md R161 to R175). -/
theorem test_decode_major : every reads
    ([
     (0x222A8123, .addi 10 17 0x8123), (0x262A8123, .addiu 10 17 0x8123),
     (0x2A2A8123, .slti 10 17 0x8123), (0x2E2A8123, .sltiu 10 17 0x8123),
     (0x322A8123, .andi 10 17 0x8123), (0x362A8123, .ori 10 17 0x8123),
     (0x3A2A8123, .xori 10 17 0x8123), (0x622A8123, .daddi 10 17 0x8123),
     (0x662A8123, .daddiu 10 17 0x8123), (0x3C0A8123, .lui 10 0x8123), (0x0A345678, .j 0x2345678),
     (0x0E345678, .jal 0x2345678), (0x122A8123, .beq 17 10 0x8123), (0x162A8123, .bne 17 10 0x8123),
     (0x1A208123, .blez 17 0x8123), (0x1E208123, .bgtz 17 0x8123), (0x522A8123, .beql 17 10 0x8123),
     (0x562A8123, .bnel 17 10 0x8123), (0x5A208123, .blezl 17 0x8123),
     (0x5E208123, .bgtzl 17 0x8123), (0x822A8123, .lb 10 17 0x8123),
     (0x922A8123, .lbu 10 17 0x8123), (0x862A8123, .lh 10 17 0x8123),
     (0x962A8123, .lhu 10 17 0x8123), (0x8E2A8123, .lw 10 17 0x8123),
     (0x9E2A8123, .lwu 10 17 0x8123), (0xDE2A8123, .ld 10 17 0x8123),
     (0x8A2A8123, .lwl 10 17 0x8123), (0x9A2A8123, .lwr 10 17 0x8123),
     (0x6A2A8123, .ldl 10 17 0x8123), (0x6E2A8123, .ldr 10 17 0x8123),
     (0xA22A8123, .sb 10 17 0x8123), (0xA62A8123, .sh 10 17 0x8123), (0xAE2A8123, .sw 10 17 0x8123),
     (0xFE2A8123, .sd 10 17 0x8123), (0xAA2A8123, .swl 10 17 0x8123),
     (0xBA2A8123, .swr 10 17 0x8123), (0xB22A8123, .sdl 10 17 0x8123),
     (0xB62A8123, .sdr 10 17 0x8123), (0xC22A8123, .ll 10 17 0x8123),
     (0xD22A8123, .lld 10 17 0x8123), (0xE22A8123, .sc 10 17 0x8123),
     (0xF22A8123, .scd 10 17 0x8123), (0xBE2D8123, .cache 13 17 0x8123),
     (0xC62A8123, .lwc1 10 17 0x8123)] ++
    [
     (0xD62A8123, .ldc1 10 17 0x8123), (0xE62A8123, .swc1 10 17 0x8123),
     (0xF62A8123, .sdc1 10 17 0x8123)]) = true := by decide

/-- The rows of the special map, each operand field at a value of its own: rs 17, rt 10, rd 21, shift 6
(30_encoding.md R161 to R175). -/
theorem test_decode_special : every reads
    ([
     (0x022AA820, .add 21 17 10), (0x022AA821, .addu 21 17 10), (0x022AA822, .sub 21 17 10),
     (0x022AA823, .subu 21 17 10), (0x022AA824, .and 21 17 10), (0x022AA825, .or 21 17 10),
     (0x022AA826, .xor 21 17 10), (0x022AA827, .nor 21 17 10), (0x022AA82A, .slt 21 17 10),
     (0x022AA82B, .sltu 21 17 10), (0x022AA82C, .dadd 21 17 10), (0x022AA82D, .daddu 21 17 10),
     (0x022AA82E, .dsub 21 17 10), (0x022AA82F, .dsubu 21 17 10), (0x000AA980, .sll 21 10 6),
     (0x000AA982, .srl 21 10 6), (0x000AA983, .sra 21 10 6), (0x000AA9B8, .dsll 21 10 6),
     (0x000AA9BA, .dsrl 21 10 6), (0x000AA9BB, .dsra 21 10 6), (0x000AA9BC, .dsll32 21 10 6),
     (0x000AA9BE, .dsrl32 21 10 6), (0x000AA9BF, .dsra32 21 10 6), (0x022AA804, .sllv 21 10 17),
     (0x022AA806, .srlv 21 10 17), (0x022AA807, .srav 21 10 17), (0x022AA814, .dsllv 21 10 17),
     (0x022AA816, .dsrlv 21 10 17), (0x022AA817, .dsrav 21 10 17), (0x022A0018, .mult 17 10),
     (0x022A0019, .multu 17 10), (0x022A001A, .div 17 10), (0x022A001B, .divu 17 10),
     (0x022A001C, .dmult 17 10), (0x022A001D, .dmultu 17 10), (0x022A001E, .ddiv 17 10),
     (0x022A001F, .ddivu 17 10), (0x0000A810, .mfhi 21), (0x02200011, .mthi 17),
     (0x0000A812, .mflo 21), (0x02200013, .mtlo 17), (0x02200008, .jr 17),
     (0x0220A809, .jalr 21 17), (0x0226AF0C, .syscall 0x89ABC), (0x0226AF0D, .brk 0x89ABC)] ++
    [
     (0x0000000F, .sync), (0x022AA970, .tge 17 10 0x2A5), (0x022AA971, .tgeu 17 10 0x2A5),
     (0x022AA972, .tlt 17 10 0x2A5), (0x022AA973, .tltu 17 10 0x2A5),
     (0x022AA974, .teq 17 10 0x2A5), (0x022AA976, .tne 17 10 0x2A5)]) = true := by decide

/-- The rows of the regimm map, each operand field at a value of its own: rs 17, rt 10, rd 21, shift 6
(30_encoding.md R161 to R175). -/
theorem test_decode_regimm : every reads [
     (0x06208123, .bltz 17 0x8123), (0x06218123, .bgez 17 0x8123), (0x06228123, .bltzl 17 0x8123),
     (0x06238123, .bgezl 17 0x8123), (0x06308123, .bltzal 17 0x8123),
     (0x06318123, .bgezal 17 0x8123), (0x06328123, .bltzall 17 0x8123),
     (0x06338123, .bgezall 17 0x8123), (0x06288123, .tgei 17 0x8123),
     (0x06298123, .tgeiu 17 0x8123), (0x062A8123, .tlti 17 0x8123), (0x062B8123, .tltiu 17 0x8123),
     (0x062C8123, .teqi 17 0x8123), (0x062E8123, .tnei 17 0x8123)] = true := by decide

/-- The rows of the cop0 cop2 map, each operand field at a value of its own: rs 17, rt 10, rd 21, shift 6
(30_encoding.md R161 to R175). -/
theorem test_decode_cop0_cop2 : every reads [
     (0x400AA800, .mfc0 10 21), (0x402AA800, .dmfc0 10 21), (0x408AA800, .mtc0 10 21),
     (0x40AAA800, .dmtc0 10 21), (0x42000001, .tlbr), (0x42000002, .tlbwi), (0x42000006, .tlbwr),
     (0x42000008, .tlbp), (0x42000018, .eret), (0x49234567, .cop2 0x1234567)] = true := by decide

/-- The rows of the cop1 other map, each operand field at a value of its own: rs 17, rt 10, rd 21, shift 6
(30_encoding.md R161 to R175). -/
theorem test_decode_cop1_other : every reads [
     (0x440AA800, .mfc1 10 21), (0x442AA800, .dmfc1 10 21), (0x444AA800, .cfc1 10 21),
     (0x448AA800, .mtc1 10 21), (0x44AAA800, .dmtc1 10 21), (0x44CAA800, .ctc1 10 21),
     (0x45008123, .bc1f 0x8123), (0x45018123, .bc1t 0x8123), (0x45028123, .bc1fl 0x8123),
     (0x45038123, .bc1tl 0x8123), (0x4680A9A0, .cvtSW 6 21), (0x46A0A9A0, .cvtSL 6 21),
     (0x4680A9A1, .cvtDW 6 21), (0x46A0A9A1, .cvtDL 6 21)] = true := by decide

/-- The rows of the cop1 single map, each operand field at a value of its own: rs 17, rt 10, rd 21, shift 6
(30_encoding.md R161 to R175). -/
theorem test_decode_cop1_single : every reads [
     (0x460AA980, .addS 6 21 10), (0x460AA981, .subS 6 21 10), (0x460AA982, .mulS 6 21 10),
     (0x460AA983, .divS 6 21 10), (0x4600A984, .sqrtS 6 21), (0x4600A985, .absS 6 21),
     (0x4600A986, .movS 6 21), (0x4600A987, .negS 6 21), (0x4600A988, .roundLS 6 21),
     (0x4600A989, .truncLS 6 21), (0x4600A98A, .ceilLS 6 21), (0x4600A98B, .floorLS 6 21),
     (0x4600A98C, .roundWS 6 21), (0x4600A98D, .truncWS 6 21), (0x4600A98E, .ceilWS 6 21),
     (0x4600A98F, .floorWS 6 21), (0x4600A9A1, .cvtDS 6 21), (0x4600A9A4, .cvtWS 6 21),
     (0x4600A9A5, .cvtLS 6 21), (0x460AA830, .cFS 21 10), (0x460AA831, .cUnS 21 10),
     (0x460AA832, .cEqS 21 10), (0x460AA833, .cUeqS 21 10), (0x460AA834, .cOltS 21 10),
     (0x460AA835, .cUltS 21 10), (0x460AA836, .cOleS 21 10), (0x460AA837, .cUleS 21 10),
     (0x460AA838, .cSfS 21 10), (0x460AA839, .cNgleS 21 10), (0x460AA83A, .cSeqS 21 10),
     (0x460AA83B, .cNglS 21 10), (0x460AA83C, .cLtS 21 10), (0x460AA83D, .cNgeS 21 10),
     (0x460AA83E, .cLeS 21 10), (0x460AA83F, .cNgtS 21 10)] = true := by decide

/-- The rows of the cop1 double map, each operand field at a value of its own: rs 17, rt 10, rd 21, shift 6
(30_encoding.md R161 to R175). -/
theorem test_decode_cop1_double : every reads [
     (0x462AA980, .addD 6 21 10), (0x462AA981, .subD 6 21 10), (0x462AA982, .mulD 6 21 10),
     (0x462AA983, .divD 6 21 10), (0x4620A984, .sqrtD 6 21), (0x4620A985, .absD 6 21),
     (0x4620A986, .movD 6 21), (0x4620A987, .negD 6 21), (0x4620A988, .roundLD 6 21),
     (0x4620A989, .truncLD 6 21), (0x4620A98A, .ceilLD 6 21), (0x4620A98B, .floorLD 6 21),
     (0x4620A98C, .roundWD 6 21), (0x4620A98D, .truncWD 6 21), (0x4620A98E, .ceilWD 6 21),
     (0x4620A98F, .floorWD 6 21), (0x4620A9A0, .cvtSD 6 21), (0x4620A9A4, .cvtWD 6 21),
     (0x4620A9A5, .cvtLD 6 21), (0x462AA830, .cFD 21 10), (0x462AA831, .cUnD 21 10),
     (0x462AA832, .cEqD 21 10), (0x462AA833, .cUeqD 21 10), (0x462AA834, .cOltD 21 10),
     (0x462AA835, .cUltD 21 10), (0x462AA836, .cOleD 21 10), (0x462AA837, .cUleD 21 10),
     (0x462AA838, .cSfD 21 10), (0x462AA839, .cNgleD 21 10), (0x462AA83A, .cSeqD 21 10),
     (0x462AA83B, .cNglD 21 10), (0x462AA83C, .cLtD 21 10), (0x462AA83D, .cNgeD 21 10),
     (0x462AA83E, .cLeD 21 10), (0x462AA83F, .cNgtD 21 10)] = true := by decide

/-- Words that select no instruction (95_test_vectors.md 2.1; R169 to R176). -/
theorem test_decode_none : every rejects [
     0x00000001, 0x00000005, 0x0000000A, 0x0000000B, 0x0000000E, 0x00000028, 0x00000035, 0x0000003D,
     0x04040000, 0x040D0000, 0x041F0000, 0x40400000, 0x40C00000, 0x41000000, 0x42000019, 0x42000020,
     0x42000000, 0x44600000, 0x45040000, 0x46800004, 0x46000020, 0x46200021, 0x46800024, 0x46400000,
     0x46000010, 0x4C000000, 0x70000000, 0x74000000, 0x78000000, 0x7C00003B, 0xC8000000, 0xCC000000,
     0xD8000000, 0xE8000000, 0xEC000000, 0xF8000000] = true := by decide

/-! ### Values: the vectors of 96_test_vectors_instructions.md and 97_test_vectors_system.md -/

/-- Section 2.2: `x[2]` after the word with `x[1]`; `none` where it overflows. -/
theorem test_immediate : every (gprAfter 2) [
     (0x20220001, 0x7FFFFFFF, 0xDEAD, none), (0x2022FFFF, 0xFFFFFFFF80000000, 0xDEAD, none),
     (0x24220001, 0x7FFFFFFF, 0xDEAD, some 0xFFFFFFFF80000000),
     (0x2422FFFF, 0xFFFFFFFF80000000, 0xDEAD, some 0x7FFFFFFF),
     (0x28220000, 0xFFFFFFFFFFFFFFFF, 0xDEAD, some 1), (0x2822FFFF, 0, 0xDEAD, some 0),
     (0x2C22FFFF, 5, 0xDEAD, some 1), (0x2C22FFFF, 0xFFFFFFFFFFFFFFFF, 0xDEAD, some 0),
     (0x3022FF00, 0xFFFFFFFFFFFF1234, 0xDEAD, some 0x1200),
     (0x3022FFFF, 0xFFFFFFFFFFFFFFFF, 0xDEAD, some 0xFFFF),
     (0x34228000, 0xFFFFFFFF00000000, 0xDEAD, some 0xFFFFFFFF00008000),
     (0x34223344, 0x1122, 0xDEAD, some 0x3366),
     (0x3822FFFF, 0xFFFFFFFFFFFFFFFF, 0xDEAD, some 0xFFFFFFFFFFFF0000),
     (0x38220FF0, 0xFF, 0xDEAD, some 0xF0F), (0x3C028000, 0, 0xDEAD, some 0xFFFFFFFF80000000),
     (0x3C027FFF, 0, 0xDEAD, some 0x7FFF0000), (0x60220001, 0x7FFFFFFFFFFFFFFF, 0xDEAD, none),
     (0x6022FFFF, 0x8000000000000000, 0xDEAD, none),
     (0x64220001, 0x7FFFFFFFFFFFFFFF, 0xDEAD, some 0x8000000000000000),
     (0x6422FFFF, 0x8000000000000000, 0xDEAD, some 0x7FFFFFFFFFFFFFFF)] = true := by decide

/-- Section 2.3: `x[3]` after the word with `x[1]`, `x[2]`; `none` where it overflows. -/
theorem test_register : every (gprAfter 3) [
     (0x00221820, 0x7FFFFFFF, 1, none), (0x00221820, 0xFFFFFFFF80000000, 0xFFFFFFFFFFFFFFFF, none),
     (0x00221821, 0x7FFFFFFF, 1, some 0xFFFFFFFF80000000),
     (0x00221821, 0xFFFFFFFFFFFFFFFF, 1, some 0), (0x00221822, 0xFFFFFFFF80000000, 1, none),
     (0x00221822, 0, 0xFFFFFFFF80000000, none),
     (0x00221823, 0xFFFFFFFF80000000, 1, some 0x7FFFFFFF),
     (0x00221823, 0, 1, some 0xFFFFFFFFFFFFFFFF),
     (0x00221824, 0xFFFF0000FFFF0000, 0xFF00FF00FF00FF0, some 0xFF000000FF00000),
     (0x00221825, 0xFFFF0000FFFF0000, 0xFF00FF00FF00FF0, some 0xFFFF0FF0FFFF0FF0),
     (0x00221826, 0xFFFF0000FFFF0000, 0xFF00FF00FF00FF0, some 0xF00F0FF0F00F0FF0),
     (0x00221826, 0x123456789ABCDEF0, 0x123456789ABCDEF0, some 0),
     (0x00221827, 0xFFFF0000FFFF0000, 0xFF00FF00FF00FF0, some 0xF00F0000F00F),
     (0x00221827, 0, 0, some 0xFFFFFFFFFFFFFFFF), (0x0022182A, 0xFFFFFFFFFFFFFFFF, 0, some 1),
     (0x0022182A, 0, 0xFFFFFFFFFFFFFFFF, some 0), (0x0022182B, 0xFFFFFFFFFFFFFFFF, 0, some 0),
     (0x0022182B, 0, 0xFFFFFFFFFFFFFFFF, some 1), (0x0022182C, 0x7FFFFFFFFFFFFFFF, 1, none),
     (0x0022182C, 0x8000000000000000, 0xFFFFFFFFFFFFFFFF, none),
     (0x0022182D, 0x7FFFFFFFFFFFFFFF, 1, some 0x8000000000000000),
     (0x0022182D, 0xFFFFFFFFFFFFFFFF, 1, some 0), (0x0022182E, 0x8000000000000000, 1, none),
     (0x0022182E, 0, 0x8000000000000000, none),
     (0x0022182F, 0x8000000000000000, 1, some 0x7FFFFFFFFFFFFFFF),
     (0x0022182F, 0, 1, some 0xFFFFFFFFFFFFFFFF)] = true := by decide

/-- Section 2.4: `x[3]` after the word with the amount in `x[1]` and the value in `x[2]`. -/
theorem test_shift : every (gprAfter 3) [
     (0x00021840, 0, 0x40000000, some 0xFFFFFFFF80000000),
     (0x00021FC0, 0, 1, some 0xFFFFFFFF80000000),
     (0x00021902, 0, 0xFFFFFFFF80000000, some 0x8000000),
     (0x00021802, 0, 0xFFFFFFFF80000000, some 0xFFFFFFFF80000000),
     (0x00021903, 0, 0xFFFFFFFF80000000, some 0xFFFFFFFFF8000000),
     (0x00021FC3, 0, 0xFFFFFFFF80000000, some 0xFFFFFFFFFFFFFFFF), (0x00221804, 0x21, 1, some 2),
     (0x00221804, 0x20, 1, some 1), (0x00221806, 0x1F, 0xFFFFFFFF80000000, some 1),
     (0x00221806, 0x20, 0xFFFFFFFF80000000, some 0xFFFFFFFF80000000),
     (0x00221807, 0x1F, 0xFFFFFFFF80000000, some 0xFFFFFFFFFFFFFFFF),
     (0x00221807, 0x20, 0xFFFFFFFF80000000, some 0xFFFFFFFF80000000),
     (0x00021FF8, 0, 1, some 0x80000000), (0x00021878, 0, 0x8000000000000001, some 2),
     (0x0002193A, 0, 0x8000000000000000, some 0x800000000000000),
     (0x00021FFA, 0, 0x8000000000000000, some 0x100000000),
     (0x0002193B, 0, 0x8000000000000000, some 0xF800000000000000),
     (0x00021FFB, 0, 0x8000000000000000, some 0xFFFFFFFF00000000),
     (0x00221814, 0x3F, 1, some 0x8000000000000000), (0x00221814, 0x40, 1, some 1),
     (0x00221816, 0x3F, 0x8000000000000000, some 1),
     (0x00221816, 0x40, 0x8000000000000000, some 0x8000000000000000),
     (0x00221817, 0x3F, 0x8000000000000000, some 0xFFFFFFFFFFFFFFFF),
     (0x00221817, 0x20, 0x8000000000000000, some 0xFFFFFFFF80000000),
     (0x0002183C, 0, 0x12345678, some 0x1234567800000000),
     (0x00021FFC, 0, 1, some 0x8000000000000000),
     (0x0002183E, 0, 0x123456789ABCDEF0, some 0x12345678),
     (0x00021FFE, 0, 0x8000000000000000, some 1),
     (0x00021FFF, 0, 0x8000000000000000, some 0xFFFFFFFFFFFFFFFF),
     (0x0002183F, 0, 0x8000000000000000, some 0xFFFFFFFF80000000)] = true := by decide

/-- Section 2.5, the rows that are no division corner: HI and LO after the word. -/
theorem test_multiply_divide : every hiLoAfter [
     (0x00220018, 0xFFFFFFFFFFFFFFFF, 2, 0xFFFFFFFFFFFFFFFF, 0xFFFFFFFFFFFFFFFE),
     (0x00220018, 0xFFFFFFFF80000000, 0xFFFFFFFF80000000, 0x40000000, 0),
     (0x00220019, 0xFFFFFFFFFFFFFFFF, 2, 1, 0xFFFFFFFFFFFFFFFE),
     (0x00220019, 0xFFFFFFFFFFFFFFFF, 0xFFFFFFFFFFFFFFFF, 0xFFFFFFFFFFFFFFFE, 1),
     (0x0022001A, 7, 2, 1, 3), (0x0022001A, 7, 0xFFFFFFFFFFFFFFFE, 1, 0xFFFFFFFFFFFFFFFD),
     (0x0022001B, 0xFFFFFFFFFFFFFFFF, 2, 1, 0x7FFFFFFF),
     (0x0022001B, 0xFFFFFFFF80000000, 0xFFFFFFFFFFFFFFFF, 0xFFFFFFFF80000000, 0),
     (0x0022001C, 0xFFFFFFFFFFFFFFFF, 2, 0xFFFFFFFFFFFFFFFF, 0xFFFFFFFFFFFFFFFE),
     (0x0022001C, 0xFFFFFFFFFFFFFFFF, 0xFFFFFFFFFFFFFFFF, 0, 1),
     (0x0022001D, 0xFFFFFFFFFFFFFFFF, 2, 1, 0xFFFFFFFFFFFFFFFE),
     (0x0022001D, 0xFFFFFFFFFFFFFFFF, 0xFFFFFFFFFFFFFFFF, 0xFFFFFFFFFFFFFFFE, 1),
     (0x0022001E, 7, 0xFFFFFFFFFFFFFFFE, 1, 0xFFFFFFFFFFFFFFFD),
     (0x0022001E, 0xFFFFFFFFFFFFFFF9, 2, 0xFFFFFFFFFFFFFFFF, 0xFFFFFFFFFFFFFFFD),
     (0x0022001F, 0xFFFFFFFFFFFFFFFF, 2, 1, 0x7FFFFFFFFFFFFFFF),
     (0x0022001F, 0x8000000000000000, 0xFFFFFFFFFFFFFFFF, 0x8000000000000000, 0)] = true := by decide

/-- Section 2.6: the pending target, and the link in `x[31]`, after the word at a pc. -/
theorem test_branch : every branchAfter [
     (0x10220003, 0xFFFFFFFF80000100, 1, 5, 5, some 0xFFFFFFFF80000110, none),
     (0x10220003, 0xFFFFFFFF80000100, 1, 5, 6, some 0xFFFFFFFF80000108, none),
     (0x1422FFFE, 0xFFFFFFFF80000100, 1, 5, 6, some 0xFFFFFFFF800000FC, none),
     (0x1422FFFE, 0xFFFFFFFF80000100, 1, 5, 5, some 0xFFFFFFFF80000108, none),
     (0x18200004, 0xFFFFFFFF80000100, 1, 0, 0, some 0xFFFFFFFF80000114, none),
     (0x18200004, 0xFFFFFFFF80000100, 1, 0xFFFFFFFFFFFFFFFF, 0, some 0xFFFFFFFF80000114, none),
     (0x1C200004, 0xFFFFFFFF80000100, 1, 1, 0, some 0xFFFFFFFF80000114, none),
     (0x1C200004, 0xFFFFFFFF80000100, 1, 0, 0, some 0xFFFFFFFF80000108, none),
     (0x50220003, 0xFFFFFFFF80000100, 1, 5, 5, some 0xFFFFFFFF80000110, none),
     (0x50220003, 0xFFFFFFFF80000100, 1, 5, 6, none, none),
     (0x54220003, 0xFFFFFFFF80000100, 1, 5, 6, some 0xFFFFFFFF80000110, none),
     (0x54220003, 0xFFFFFFFF80000100, 1, 5, 5, none, none),
     (0x58200004, 0xFFFFFFFF80000100, 1, 0, 0, some 0xFFFFFFFF80000114, none),
     (0x58200004, 0xFFFFFFFF80000100, 1, 1, 0, none, none),
     (0x5C200004, 0xFFFFFFFF80000100, 1, 1, 0, some 0xFFFFFFFF80000114, none),
     (0x5C200004, 0xFFFFFFFF80000100, 1, 0, 0, none, none),
     (0x04200004, 0xFFFFFFFF80000100, 1, 0xFFFFFFFFFFFFFFFF, 0, some 0xFFFFFFFF80000114, none),
     (0x04200004, 0xFFFFFFFF80000100, 1, 0, 0, some 0xFFFFFFFF80000108, none),
     (0x04210004, 0xFFFFFFFF80000100, 1, 0, 0, some 0xFFFFFFFF80000114, none),
     (0x04210004, 0xFFFFFFFF80000100, 1, 0xFFFFFFFFFFFFFFFF, 0, some 0xFFFFFFFF80000108, none),
     (0x04220004, 0xFFFFFFFF80000100, 1, 0xFFFFFFFFFFFFFFFF, 0, some 0xFFFFFFFF80000114, none),
     (0x04220004, 0xFFFFFFFF80000100, 1, 0, 0, none, none),
     (0x04230004, 0xFFFFFFFF80000100, 1, 0, 0, some 0xFFFFFFFF80000114, none),
     (0x04230004, 0xFFFFFFFF80000100, 1, 0xFFFFFFFFFFFFFFFF, 0, none, none),
     (0x04300010, 0xFFFFFFFF80000100, 1, 0xFFFFFFFFFFFFFFFF, 0, some 0xFFFFFFFF80000144, some 0xFFFFFFFF80000108),
     (0x04300010, 0xFFFFFFFF80000100, 1, 5, 0, some 0xFFFFFFFF80000108, some 0xFFFFFFFF80000108),
     (0x04310010, 0xFFFFFFFF80000100, 1, 0, 0, some 0xFFFFFFFF80000144, some 0xFFFFFFFF80000108),
     (0x04310010, 0xFFFFFFFF80000100, 1, 0xFFFFFFFFFFFFFFFF, 0, some 0xFFFFFFFF80000108, some 0xFFFFFFFF80000108),
     (0x04320010, 0xFFFFFFFF80000100, 1, 0xFFFFFFFFFFFFFFFF, 0, some 0xFFFFFFFF80000144, some 0xFFFFFFFF80000108),
     (0x04320010, 0xFFFFFFFF80000100, 1, 0, 0, none, some 0xFFFFFFFF80000108),
     (0x04330010, 0xFFFFFFFF80000100, 1, 0, 0, some 0xFFFFFFFF80000144, some 0xFFFFFFFF80000108),
     (0x04330010, 0xFFFFFFFF80000100, 1, 0xFFFFFFFFFFFFFFFF, 0, none, some 0xFFFFFFFF80000108),
     (0x08000400, 0xFFFFFFFF80001000, 1, 0, 0, some 0xFFFFFFFF80001000, none),
     (0x08000000, 0xFFFFFFFF8FFFFFFC, 1, 0, 0, some 0xFFFFFFFF90000000, none),
     (0x0C000080, 0xFFFFFFFF80000100, 1, 0, 0, some 0xFFFFFFFF80000200, some 0xFFFFFFFF80000108),
     (0x0C100040, 0x400000, 1, 0, 0, some 0x400100, some 0x400008),
     (0x03E00008, 0xFFFFFFFF80000200, 31, 0xFFFFFFFF80000108, 0, some 0xFFFFFFFF80000108, none),
     (0x00800008, 0xFFFFFFFF80000200, 4, 0xFFFFFFFF80000102, 0, some 0xFFFFFFFF80000102, none),
     (0x0080F809, 0xFFFFFFFF80000200, 4, 0xFFFFFFFF80003000, 0, some 0xFFFFFFFF80003000, some 0xFFFFFFFF80000208),
     (0x00802009, 0xFFFFFFFF80000200, 4, 0xFFFFFFFF80003000, 0, some 0xFFFFFFFF80003000, some 0xFFFFFFFF80000208)] = true := by decide

/-- Section 2.7: the pending load of `x[2]` after the word. -/
theorem test_aligned_loads : every loadAfter [
     (0x80220000, 0xFFFFFFFFFFFFFF81), (0x80220003, 0xFFFFFFFFFFFFFFB4), (0x90220000, 0x81),
     (0x90220007, 0xF8), (0x84220000, 0xFFFFFFFFFFFF8192), (0x84220002, 0xFFFFFFFFFFFFA3B4),
     (0x94220000, 0x8192), (0x94220006, 0xE7F8), (0x8C220000, 0xFFFFFFFF8192A3B4),
     (0x8C220004, 0xFFFFFFFFC5D6E7F8), (0x9C220000, 0x8192A3B4), (0x9C220004, 0xC5D6E7F8),
     (0xDC220000, 0x8192A3B4C5D6E7F8)] = true := by decide

/-- Section 2.7: the bytes the word writes at an address, and that it writes no other of the eight. -/
theorem test_aligned_stores : every storesWord [
     (0xA0220000, 0x100, [0x08]), (0xA4220000, 0x100, [0x07, 0x08]),
     (0xAC220000, 0x100, [0x05, 0x06, 0x07, 0x08]),
     (0xFC220000, 0x100, [0x01, 0x02, 0x03, 0x04, 0x05, 0x06, 0x07, 0x08])] = true := by decide

/-- Section 2.7: the merged value. -/
theorem test_partial_loads : every loads [
     (.lwl 2 1 1, 0xFFFFFFFF92A3B4EE), (.lwl 2 1 2, 0xFFFFFFFFA3B4DDEE),
     (.lwr 2 1 1, 0xFFFFFFFFBBCC8192), (.lwr 2 1 2, 0xFFFFFFFFBB8192A3),
     (.ldl 2 1 1, 0x92A3B4C5D6E7F8EE), (.ldl 2 1 6, 0xE7F8AAAABBCCDDEE),
     (.ldr 2 1 1, 0xAAAAAAAABBCC8192), (.ldr 2 1 6, 0xAA8192A3B4C5D6E7)] = true := by decide

/-- Section 2.7: the bytes written. -/
theorem test_partial_stores : every stores [
     (.swl 2 1 1, 0x101, [0x05, 0x06, 0x07]), (.swl 2 1 2, 0x102, [0x05, 0x06]),
     (.swr 2 1 1, 0x100, [0x07, 0x08]), (.swr 2 1 2, 0x100, [0x06, 0x07, 0x08]),
     (.sdl 2 1 1, 0x101, [0x01, 0x02, 0x03, 0x04, 0x05, 0x06, 0x07]),
     (.sdl 2 1 6, 0x106, [0x01, 0x02]), (.sdr 2 1 1, 0x100, [0x07, 0x08]),
     (.sdr 2 1 6, 0x100, [0x02, 0x03, 0x04, 0x05, 0x06, 0x07, 0x08])] = true := by decide

/-- Section 2.7: half the access size is a misaligned offset. -/
theorem test_misaligned : every misaligned [
     (.lh 2 1 1, .load), (.lhu 2 1 1, .load), (.lw 2 1 2, .load), (.lwu 2 1 2, .load),
     (.ld 2 1 4, .load), (.sh 2 1 1, .store), (.sw 2 1 2, .store), (.sd 2 1 4, .store),
     (.ll 2 1 2, .load), (.lld 2 1 4, .load), (.sc 2 1 2, .store), (.scd 2 1 4, .store),
     (.lwc1 2 1 2, .load), (.ldc1 2 1 4, .load), (.swc1 2 1 2, .store), (.sdc1 2 1 4, .store)] = true := by decide

/-- Section 2.8: whether the word traps. -/
theorem test_traps : every trapsAfter [
     (0x00220030, 5, 5, true), (0x00220030, 0xFFFFFFFFFFFFFFFF, 0, false),
     (0x00220031, 0xFFFFFFFFFFFFFFFF, 0, true), (0x00220031, 0, 0xFFFFFFFFFFFFFFFF, false),
     (0x00220032, 0xFFFFFFFFFFFFFFFF, 0, true), (0x00220032, 0, 0xFFFFFFFFFFFFFFFF, false),
     (0x00220033, 0, 0xFFFFFFFFFFFFFFFF, true), (0x00220033, 0xFFFFFFFFFFFFFFFF, 0, false),
     (0x00220034, 7, 7, true), (0x00220034, 0x80000000, 0xFFFFFFFF80000000, false),
     (0x00220036, 7, 8, true), (0x00220036, 7, 7, false), (0x0428FFFF, 0, 0, true),
     (0x0428FFFF, 0xFFFFFFFFFFFFFFFE, 0, false), (0x0429FFFF, 0, 0, false),
     (0x0429FFFF, 0xFFFFFFFFFFFFFFFF, 0, true), (0x042AFFFF, 0xFFFFFFFFFFFFFFFE, 0, true),
     (0x042AFFFF, 0, 0, false), (0x042BFFFF, 0, 0, true),
     (0x042BFFFF, 0xFFFFFFFFFFFFFFFF, 0, false), (0x042CFFFF, 0xFFFFFFFFFFFFFFFF, 0, true),
     (0x042CFFFF, 0xFFFF, 0, false), (0x042EFFFF, 0xFFFF, 0, true),
     (0x042EFFFF, 0xFFFFFFFFFFFFFFFF, 0, false)] = true := by decide

set_option maxRecDepth 20000 in
/-- Section 2.12: the D or L result in `f[2]` of `f[4]`, `f[6]` and the exceptions under a mode;
`none` where the instruction is unimplemented. -/
theorem test_fp_wide : every (fpAfter true) [
     (0x46262080, 0x3FF0000000000000, 0x4000000000000000, 0, some 0x4008000000000000, 0),
     (0x46262081, 0x4016000000000000, 0x401D000000000000, 0, some 0xBFFC000000000000, 0),
     (0x46262082, 0x3FE0000000000000, 0x3FE0000000000000, 0, some 0x3FD0000000000000, 0),
     (0x46262083, 0xC022000000000000, 0x4008000000000000, 0, some 0xC008000000000000, 0),
     (0x46262083, 0xBFF0000000000000, 0x4008000000000000, 0, some 0xBFD5555555555555, 1),
     (0x46202084, 0x4000000000000000, 0, 0, some 0x3FF6A09E667F3BCD, 1),
     (0x46202085, 0x8000000000000000, 0, 0, some 0, 0),
     (0x46202087, 0x3FF0000000000000, 0, 0, some 0xBFF0000000000000, 0),
     (0x46202088, 0x3FF8000000000000, 0, 0, some 2, 1),
     (0x46202088, 0xBFF8000000000000, 0, 0, some 0xFFFFFFFFFFFFFFFE, 1),
     (0x46002088, 0x40600000, 0, 0, some 4, 1), (0x46202089, 0x3FF8000000000000, 0, 0, some 1, 1),
     (0x46202089, 0xBFF8000000000000, 0, 0, some 0xFFFFFFFFFFFFFFFF, 1),
     (0x46002089, 0x40600000, 0, 0, some 3, 1), (0x4620208A, 0x3FF8000000000000, 0, 0, some 2, 1),
     (0x4620208A, 0xBFF8000000000000, 0, 0, some 0xFFFFFFFFFFFFFFFF, 1),
     (0x4600208A, 0x40600000, 0, 0, some 4, 1), (0x4620208B, 0x3FF8000000000000, 0, 0, some 1, 1),
     (0x4620208B, 0xBFF8000000000000, 0, 0, some 0xFFFFFFFFFFFFFFFE, 1),
     (0x4600208B, 0x40600000, 0, 0, some 3, 1),
     (0x462020A5, 0xC004000000000000, 0, 0, some 0xFFFFFFFFFFFFFFFE, 1),
     (0x462020A5, 0xC004000000000000, 0, 1, some 0xFFFFFFFFFFFFFFFE, 1),
     (0x460020A5, 0x49800000, 0, 0, some 0x100000, 0),
     (0x46A020A1, 0x7FFFFFFFFFFFFF, 0, 0, some 0x4360000000000000, 1),
     (0x460020A1, 0x3F800000, 0, 0, some 0x3FF0000000000000, 0),
     (0x460020A1, 0xBE200000, 0, 0, some 0xBFC4000000000000, 0),
     (0x468020A1, 0xFFFFFFFF, 0, 0, some 0xBFF0000000000000, 0),
     (0x468020A1, 0x7FFFFFFF, 0, 0, some 0x41DFFFFFFFC00000, 0),
     (0x46A020A1, 0x20000000000001, 0, 0, some 0x4340000000000000, 1)] = true := by decide

set_option maxRecDepth 20000 in
/-- Section 2.12, the words with an S or W result (whose upper half is free): the exceptions. -/
theorem test_fp_narrow : every (fpAfter false) [
     (0x46062080, 0x3FC00000, 0x40100000, 0, some 0, 0),
     (0x46062080, 0x3F800000, 0xBF800000, 0, some 0, 0),
     (0x46062081, 0x3F800000, 0x3F800000, 0, some 0, 0),
     (0x46062082, 0x3FC00000, 0xC0000000, 0, some 0, 0),
     (0x46062082, 0x40400000, 0x3DCCCCCD, 0, some 0, 1),
     (0x46062083, 0x3F800000, 0x40800000, 0, some 0, 0),
     (0x46062083, 0x3F800000, 0x40400000, 0, some 0, 1), (0x46002084, 0x40800000, 0, 0, some 0, 0),
     (0x46002084, 0x80000000, 0, 0, some 0, 0), (0x46002085, 0xBF800000, 0, 0, some 0, 0),
     (0x46002087, 0, 0, 0, some 0, 0), (0x46002086, 1, 0, 0, some 0, 0),
     (0x4600208C, 0x40200000, 0, 0, some 0, 1), (0x4600208C, 0xC0200000, 0, 0, some 0, 1),
     (0x4620208C, 0xBFE0000000000000, 0, 0, some 0, 1), (0x4600208D, 0x40200000, 0, 0, some 0, 1),
     (0x4600208D, 0xC0200000, 0, 0, some 0, 1), (0x4620208D, 0xBFE0000000000000, 0, 0, some 0, 1),
     (0x4600208E, 0x40200000, 0, 0, some 0, 1), (0x4600208E, 0xC0200000, 0, 0, some 0, 1),
     (0x4620208E, 0xBFE0000000000000, 0, 0, some 0, 1), (0x4600208F, 0x40200000, 0, 0, some 0, 1),
     (0x4600208F, 0xC0200000, 0, 0, some 0, 1), (0x4620208F, 0xBFE0000000000000, 0, 0, some 0, 1),
     (0x460020A4, 0x3FC00000, 0, 0, some 0, 1), (0x460020A4, 0x3FC00000, 0, 1, some 0, 1),
     (0x462020A4, 0xC004000000000000, 0, 0, some 0, 1),
     (0x462020A4, 0xC004000000000000, 0, 1, some 0, 1),
     (0x46A020A0, 0x80000000000000, 0, 0, none, 0), (0x468020A0, 1, 0, 0, some 0, 0),
     (0x468020A0, 0xFFFFFFFF, 0, 0, some 0, 0), (0x462020A0, 0x3FF0000000000000, 0, 0, some 0, 0),
     (0x462020A0, 0x3FB999999999999A, 0, 0, some 0, 1), (0x46A020A0, 0x100000, 0, 0, some 0, 0)] = true := by decide

set_option maxRecDepth 20000 in
/-- Section 2.12: the S or W results and their exceptions. -/
theorem test_fp_narrow_values : every fpGives [
     (fpAdd .single (env .nearest) 0x3FC00000 0x40100000, 0x40700000, 0),
     (fpAdd .single (env .nearest) 0x3F800000 0xBF800000, 0, 0),
     (fpSub .single (env .nearest) 0x3F800000 0x3F800000, 0, 0),
     (fpMul .single (env .nearest) 0x3FC00000 0xC0000000, 0xC0400000, 0),
     (fpMul .single (env .nearest) 0x40400000 0x3DCCCCCD, 0x3E99999A, 1),
     (fpDiv .single (env .nearest) 0x3F800000 0x40800000, 0x3E800000, 0),
     (fpDiv .single (env .nearest) 0x3F800000 0x40400000, 0x3EAAAAAB, 1),
     (fpSqrt .single (env .nearest) 0x40800000, 0x40000000, 0),
     (fpSqrt .single (env .nearest) 0x80000000, 0x80000000, 0),
     (fpAbs .single (env .nearest) 0xBF800000, 0x3F800000, 0),
     (fpNeg .single (env .nearest) 0, 0x80000000, 0), (fpToWord .single .nearest 0x40200000, 2, 1),
     (fpToWord .single .nearest 0xC0200000, 0xFFFFFFFE, 1),
     (fpToWord .double .nearest 0xBFE0000000000000, 0, 1),
     (fpToWord .single .towardZero 0x40200000, 2, 1),
     (fpToWord .single .towardZero 0xC0200000, 0xFFFFFFFE, 1),
     (fpToWord .double .towardZero 0xBFE0000000000000, 0, 1),
     (fpToWord .single .up 0x40200000, 3, 1), (fpToWord .single .up 0xC0200000, 0xFFFFFFFE, 1),
     (fpToWord .double .up 0xBFE0000000000000, 0, 1), (fpToWord .single .down 0x40200000, 2, 1),
     (fpToWord .single .down 0xC0200000, 0xFFFFFFFD, 1),
     (fpToWord .double .down 0xBFE0000000000000, 0xFFFFFFFF, 1),
     (fpToWord .single .nearest 0x3FC00000, 2, 1), (fpToWord .single .towardZero 0x3FC00000, 1, 1),
     (fpToWord .double .nearest 0xC004000000000000, 0xFFFFFFFE, 1),
     (fpToWord .double .towardZero 0xC004000000000000, 0xFFFFFFFE, 1),
     (fpOfWord .single (env .nearest) 1, 0x3F800000, 0),
     (fpOfWord .single (env .nearest) 0xFFFFFFFF, 0xBF800000, 0),
     (fpConvert .double .single (env .nearest) 0x3FF0000000000000, 0x3F800000, 0),
     (fpConvert .double .single (env .nearest) 0x3FB999999999999A, 0x3DCCCCCD, 1),
     (fpOfLong .single (env .nearest) 0x100000, 0x49800000, 0)] = true := by decide

set_option maxRecDepth 20000 in
/-- Section 2.12: the condition for 1.0 and 2.0, 2.0 and 1.0, 1.0 and a quiet NaN, and whether the last is invalid. -/
theorem test_fp_compare : every compareAfter [
     (0x46062030, false, false, false, true), (0x46062031, false, false, true, true),
     (0x46062032, false, false, false, true), (0x46062033, false, false, true, true),
     (0x46062034, true, false, false, true), (0x46062035, true, false, true, true),
     (0x46062036, true, false, false, true), (0x46062037, true, false, true, true),
     (0x46062038, false, false, false, true), (0x46062039, false, false, true, true),
     (0x4606203A, false, false, false, true), (0x4606203B, false, false, true, true),
     (0x4606203C, true, false, false, true), (0x4606203D, true, false, true, true),
     (0x4606203E, true, false, false, true), (0x4606203F, true, false, true, true)] = true := by decide

/-- Section 2.9: the register after all ones are written over the base state. -/
theorem test_cp0_masks : every cp0After [
     (0x40810000, 0, 0xFFFFFFFF8000003F), (0x40811000, 2, 0x3FFFFFF), (0x40811800, 3, 0x3FFFFFF),
     (0x40812000, 4, 0xFFFFFFFFFF800000), (0x40812800, 5, 0x1FFE000), (0x40813000, 6, 0x3F),
     (0x40814800, 9, 0xFFFFFFFFFFFFFFFF), (0x40815000, 10, 0xC00000FFFFFFE0FF),
     (0x40815800, 11, 0xFFFFFFFFFFFFFFFF), (0x40816000, 12, 0xFFFFFFFFFF57FFFF),
     (0x40817000, 14, 0xFFFFFFFFFFFFFFFF), (0x40818800, 17, 0xFFFFFFFFFFFFFFFF),
     (0x40819000, 18, 0xFFFFFFFFFFFFFFFB), (0x40819800, 19, 0xF),
     (0x4081A000, 20, 0xFFFFFFFE00000000), (0x4081D000, 26, 0xFF), (0x4081E000, 28, 0xFFFFFC0),
     (0x4081F000, 30, 0xFFFFFFFFFFFFFFFF)] = true := by decide

/-- Section 2.13: EPC, Cause, Status and the pc after the dispatch of a fault at 0xFFFFFFFF80001000. -/
theorem test_exception_entry : every entryAfter [
     (0x00000000, .addressError .load, 0, false, 0xFFFFFFFF80001000, 0x10, 2, 0xFFFFFFFF80000180),
     (0x00000000, .addressError .store, 0, false, 0xFFFFFFFF80001000, 0x14, 2, 0xFFFFFFFF80000180),
     (0x00000010, .addressError .fetch, 0, false, 0xFFFFFFFF80001000, 0x10, 0x12, 0xFFFFFFFF80000180),
     (0x00000000, .tlbMiss .load, 0, false, 0xFFFFFFFF80001000, 8, 2, 0xFFFFFFFF80000000),
     (0x00000000, .tlbMiss .store, 0, false, 0xFFFFFFFF80001000, 0xC, 2, 0xFFFFFFFF80000000),
     (0x00000080, .tlbMiss .load, 0, false, 0xFFFFFFFF80001000, 8, 0x82, 0xFFFFFFFF80000080),
     (0x00000030, .tlbMiss .load, 0, false, 0xFFFFFFFF80001000, 8, 0x32, 0xFFFFFFFF80000080),
     (0x00000090, .tlbMiss .load, 0, false, 0xFFFFFFFF80001000, 8, 0x92, 0xFFFFFFFF80000000),
     (0x00000002, .tlbMiss .load, 0, false, 0x55, 8, 2, 0xFFFFFFFF80000180),
     (0x00400000, .tlbMiss .store, 0, false, 0xFFFFFFFF80001000, 0xC, 0x400002, 0xFFFFFFFFBFC00200),
     (0x00400080, .tlbMiss .load, 0, false, 0xFFFFFFFF80001000, 8, 0x400082, 0xFFFFFFFFBFC00280),
     (0x00000000, .tlbInvalid .load, 0, false, 0xFFFFFFFF80001000, 8, 2, 0xFFFFFFFF80000180),
     (0x00000000, .tlbInvalid .store, 0, false, 0xFFFFFFFF80001000, 0xC, 2, 0xFFFFFFFF80000180),
     (0x00000000, .tlbModified, 0, false, 0xFFFFFFFF80001000, 4, 2, 0xFFFFFFFF80000180),
     (0x00000000, .syscall, 0, false, 0xFFFFFFFF80001000, 0x20, 2, 0xFFFFFFFF80000180),
     (0x00000000, .breakpoint, 0, false, 0xFFFFFFFF80001000, 0x24, 2, 0xFFFFFFFF80000180),
     (0x00000010, .reservedInstruction, 0, false, 0xFFFFFFFF80001000, 0x28, 0x12, 0xFFFFFFFF80000180),
     (0x00000010, .coprocessorUnusable, 0, false, 0xFFFFFFFF80001000, 0x2C, 0x12, 0xFFFFFFFF80000180),
     (0x00000000, .coprocessorUnusable, 1, false, 0xFFFFFFFF80001000, 0x1000002C, 2, 0xFFFFFFFF80000180),
     (0x00000000, .arithmeticOverflow, 0, false, 0xFFFFFFFF80001000, 0x30, 2, 0xFFFFFFFF80000180),
     (0x00000000, .arithmeticOverflow, 0, true, 0xFFFFFFFF80001000, 0x80000030, 2, 0xFFFFFFFF80000180),
     (0x00000000, .trap, 0, false, 0xFFFFFFFF80001000, 0x34, 2, 0xFFFFFFFF80000180),
     (0x20000000, .floatingPoint, 0, false, 0xFFFFFFFF80001000, 0x3C, 0x20000002, 0xFFFFFFFF80000180),
     (0x00400000, .breakpoint, 0, false, 0xFFFFFFFF80001000, 0x24, 0x400002, 0xFFFFFFFFBFC00380),
     (0x00000002, .syscall, 0, false, 0x55, 0x20, 2, 0xFFFFFFFF80000180),
     (0x00400004, .syscall, 0, false, 0xFFFFFFFF80001000, 0x20, 0x400006, 0xFFFFFFFFBFC00380)] = true := by decide

/-- Section 2.14: whether an interrupt is taken under a Status and eight levels. -/
theorem test_interrupt_condition : every interruptAfter [
     (0x401, 0x4, true), (0xFB01, 0x4, false), (0x1401, 0x14, true), (0x1001, 0x14, true),
     (0xFF00, 0xFF, false), (0xFF03, 0xFF, false), (0xFF05, 0xFF, false), (0xFF01, 0x0, false),
     (0x101, 0x1, true), (0x101, 0x2, false), (0x8001, 0x80, true)] = true := by decide

/-- Section 2.15: whether Count, moving on by an amount, sets the timer latch. -/
theorem test_timer : every timerAfter [
     (4, 5, 1, true), (5, 5, 1, false), (0xFFFFFFFF, 0, 1, true), (3, 5, 3, true), (3, 5, 2, true),
     (3, 5, 1, false), (0xFFFFFFFE, 1, 4, true), (7, 7, 0, false), (6, 7, 0, false),
     (0, 0, 1, false)] = true := by decide

/-- Section 2.10: the segments in Kernel and Supervisor mode. -/
theorem test_segments : every translates [
     (0, 0xFFFFFFFF80001234, .load, .physical 0x00001234 .cached),
     (8, 0xFFFFFFFF80001234, .load, .raises (.addressError .load)),
     (0, 0xFFFFFFFFA0001234, .load, .physical 0x00001234 .uncached),
     (8, 0xFFFFFFFFA0001234, .load, .raises (.addressError .load)),
     (0, 0xFFFFFFFFBFC00000, .load, .physical 0x1FC00000 .uncached),
     (8, 0xFFFFFFFFBFC00000, .load, .raises (.addressError .load)),
     (0, 0xFFFFFFFFC0000000, .load, .raises (.tlbMiss .load)),
     (8, 0xFFFFFFFFC0000000, .load, .raises (.tlbMiss .load)),
     (0, 0xFFFFFFFFE0000000, .load, .raises (.tlbMiss .load)),
     (8, 0xFFFFFFFFE0000000, .load, .raises (.addressError .load)),
     (0, 0x000000007FFFFFFF, .load, .raises (.tlbMiss .load)),
     (8, 0x000000007FFFFFFF, .load, .raises (.tlbMiss .load)),
     (0, 0x0000000000000000, .load, .raises (.tlbMiss .load)),
     (8, 0x0000000000000000, .load, .raises (.tlbMiss .load)),
     (0, 0x0000000080001234, .load, .raises (.addressError .load)),
     (8, 0x0000000080001234, .load, .raises (.addressError .load)),
     (0, 0x00000000FFFFFFFF, .load, .raises (.addressError .load)),
     (8, 0x00000000FFFFFFFF, .load, .raises (.addressError .load)),
     (0, 0x0000000100000000, .load, .raises (.addressError .load)),
     (8, 0x0000000100000000, .load, .raises (.addressError .load)),
     (0, 0xFFFFFFFF7FFFFFFF, .load, .raises (.addressError .load)),
     (8, 0xFFFFFFFF7FFFFFFF, .load, .raises (.addressError .load)),
     (0, 0x4000000000000000, .load, .raises (.addressError .load)),
     (8, 0x4000000000000000, .load, .raises (.addressError .load)),
     (0, 0xC000000000000000, .load, .raises (.addressError .load)),
     (8, 0xC000000000000000, .load, .raises (.addressError .load)),
     (0, 0x8000000080001234, .load, .raises (.addressError .load)),
     (8, 0x8000000080001234, .load, .raises (.addressError .load))] = true := by decide

/-- Section 2.10: entry 3 (4 KB pages) and entry 4 (16 KB pages), ASID 5. -/
theorem test_tlb : every translates [
     (0, 0x0000000000400ABC, .load, .physical 0x00020ABC .cached),
     (0, 0x0000000000400ABC, .store, .physical 0x00020ABC .cached),
     (0, 0x0000000000400ABC, .fetch, .physical 0x00020ABC .cached),
     (0, 0x0000000000401ABC, .load, .physical 0x00021ABC .cached),
     (0, 0x0000000000402000, .load, .raises (.tlbMiss .load)),
     (0, 0x00000000003FFFFF, .store, .raises (.tlbMiss .store)),
     (0, 0x0000000010008000, .load, .physical 0x00100000 .cached),
     (0, 0x000000001000B234, .load, .physical 0x00103234 .cached),
     (0, 0x000000001000D234, .load, .physical 0x00205234 .cached),
     (0, 0x0000000010010000, .load, .raises (.tlbMiss .load)),
     (0, 0xFFFFFFFFC0000ABC, .load, .raises (.tlbMiss .load))] = true := by decide

/-! ### One step of the system instructions, the pipeline and reset -/

/-- Section 2.16 and R502: the first step after reset runs the word at physical 0x1FC00000. -/
theorem test_step_from_reset :
    after (step (State.reset.withFetchWord 32 0x24021234)) (fun t =>
      decide (t.readGpr 2 = 0x1234 ∧ t.pc = 0xFFFFFFFFBFC00004)) = true := by decide

/-- Section 2.16: the instruction after a load reads the old value, and the load then commits. -/
theorem test_load_then_use :
    after (exec (.addu 3 2 0) { base.setGpr 2 5 with ld := some ⟨2, 9⟩ }) (fun t =>
      decide (t.readGpr 3 = 5 ∧ t.readGpr 2 = 9 ∧ t.ld = none)) = true := by decide

/-- Section 2.16: commit first, then the own write. -/
theorem test_load_then_overwrite :
    after (exec (.addiu 2 0 7) { base with ld := some ⟨2, 9⟩ }) (fun t => decide (t.readGpr 2 = 7)) =
      true := by decide

/-- Section 2.16: a fault in a delay slot reports the branch. -/
theorem test_fault_in_slot :
    after (exec (.syscall 0) { base with br := some ⟨0x40, 0xFFFFFFFF800000FC⟩, ld := some ⟨2, 9⟩ })
      (fun t => decide (t.pending = some ⟨.syscall, 0, none, true, 0xFFFFFFFF800000FC⟩ ∧
        t.readGpr 2 = 9 ∧ t.br = none)) = true := by decide

/-- Section 2.16: a branch in a delay slot. -/
theorem test_branch_in_slot :
    after (exec (.beq 0 0 4) { base with br := some ⟨0x40, 0xFFFFFFFF800000FC⟩ }) (fun t =>
      decide (t.pc = 0x40 ∧ t.br = some ⟨0xFFFFFFFF80000114, 0xFFFFFFFF80000100⟩)) = true := by decide

/-- Section 2.7: LL, and SC with and without `LLbit`. -/
theorem test_ll : after (exec (.ll 2 1 0) loaded) (fun t =>
    decide (t.ld = some ⟨2, 0xFFFFFFFF8192A3B4⟩ ∧ t.llbit = true ∧ t.cp0.llAddr = 0x10)) = true := by
  decide
theorem test_sc : after (exec (.sc 2 1 0) { loaded with llbit := true }) (fun t =>
    decide (t.readGpr 2 = 1) && bytesAre t 0x100 [0xBB, 0xCC, 0xDD, 0xEE]) = true := by decide
theorem test_sc_fails : after (exec (.sc 2 1 0) loaded) (fun t =>
    decide (t.readGpr 2 = 0 ∧ t.mem = loaded.mem)) = true := by decide
theorem test_scd : after (exec (.scd 2 1 0) { loaded with llbit := true }) (fun t =>
    decide (t.readGpr 2 = 1) && bytesAre t 0x100 [0xAA, 0xAA, 0xAA, 0xAA, 0xBB, 0xCC, 0xDD, 0xEE]) =
      true := by decide

/-- Section 2.8: the instructions that only raise or only move on. -/
theorem test_system : every (fun r : Instr × FaultKind => after (exec r.1 base) (kindIs r.2)) [
     (.syscall 0, .syscall), (.brk 5, .breakpoint), (.cop2 0, .reservedInstruction)] = true := by decide
theorem test_sync_cache : every (fun i : Instr => after (exec i base) fun t =>
    decide (t.pc = base.pc + 4 ∧ t.pending = none ∧ t.mem = [])) [.sync, .cache 0 1 0] = true := by decide

/-- Section 2.9: word and doubleword moves. -/
theorem test_mfc0 : after (exec (.mfc0 2 14)
    { base with cp0 := { base.cp0 with epc := 0x123456789ABCDEF0 } }) (fun t =>
      decide (t.readGpr 2 = 0xFFFFFFFF9ABCDEF0)) = true := by decide
theorem test_dmfc0 : after (exec (.dmfc0 2 14)
    { base with cp0 := { base.cp0 with epc := 0x123456789ABCDEF0 } }) (fun t =>
      decide (t.readGpr 2 = 0x123456789ABCDEF0)) = true := by decide
theorem test_mtc0 : after (exec (.mtc0 1 14) (base.setGpr 1 0x80000400)) (fun t =>
    decide (t.cp0.epc = 0xFFFFFFFF80000400)) = true := by decide
theorem test_dmtc0 : after (exec (.dmtc0 1 14) (base.setGpr 1 0x80000400)) (fun t =>
    decide (t.cp0.epc = 0x80000400)) = true := by decide

/-- Section 2.9: the registers of the TLB write of program P4, and what each step leaves. -/
def tlbDemo : State :=
  { base with cp0 := { base.cp0 with
      index := 3, entryHi := 0x00400005, entryLo0 := 0x806, entryLo1 := 0x842 } }
theorem test_tlbwi : after (exec .tlbwi tlbDemo) (fun t =>
    decide (t.tlbEntry 3 = ⟨0, 0x200, 0, 5, false, 0x20, 0, true, true, 0x21, 0, false, true⟩)) =
      true := by decide
theorem test_tlbr : after (exec .tlbr { mapped with cp0 := { mapped.cp0 with index := 3 } }) (fun t =>
    decide (t.cp0.pageMask = 0 ∧ t.cp0.entryHi = 0x00400005 ∧ t.cp0.entryLo0 = 0x806 ∧
      t.cp0.entryLo1 = 0x842)) = true := by decide
theorem test_tlbp : after (exec .tlbp { mapped with cp0 := { mapped.cp0 with entryHi := 0x00400005 } })
    (fun t => decide (t.cp0.index = 3)) = true := by decide
theorem test_tlbwr : after (exec .tlbwr tlbDemo) (fun t =>
    decide ((t.tlbEntry 31).pfn0 = 0x20 ∧ t.tlbEntry 3 = base.tlbEntry 3)) = true := by decide

/-- Section 2.9: ERET. -/
theorem test_eret : after (exec .eret
    { base with cp0 := { base.cp0 with status := 0x13, epc := 0x00400020 }, llbit := true }) (fun t =>
      decide (t.pc = 0x00400020 ∧ t.cp0.status = 0x11 ∧ t.mode = .user ∧ t.llbit = false)) = true := by
  decide
theorem test_eret_error : after (exec .eret { base with cp0 := { base.cp0 with
      status := 0x6, epc := 0xFFFFFFFF80000400, errorEpc := 0xFFFFFFFF80000800 } }) (fun t =>
      decide (t.pc = 0xFFFFFFFF80000800 ∧ t.cp0.status = 2)) = true := by decide

/-- Section 2.11: the start values, in either register mode. -/
def fpStart (status : BitVec 32) : State :=
  { ({ loaded with cp0 := { base.cp0 with status := status } }.setFpr 4 0x1111111122222222).setFpr 5
      0x3333333344444444 with mem := Memory.write [] 0x100 8 0x3F80000000000000 }
theorem test_mtc1 : after (exec (.mtc1 1 5) ((fpStart 0x20000000).setGpr 1 0xFFFFFFFFBF800000))
    (fun t => decide (t.readFpr 4 = 0xBF80000022222222 ∧ t.readFpr 5 = 0x3333333344444444)) = true := by
  decide
theorem test_mfc1 : after (exec (.mfc1 2 5) (fpStart 0x20000000)) (fun t =>
    decide (t.readGpr 2 = 0x11111111)) = true := by decide
theorem test_mfc1_full : after (exec (.mfc1 2 5) (fpStart 0x24000000)) (fun t =>
    decide (t.readGpr 2 = 0x44444444)) = true := by decide
theorem test_dmfc1 : after (exec (.dmfc1 2 5) (fpStart 0x24000000)) (fun t =>
    decide (t.readGpr 2 = 0x3333333344444444)) = true := by decide
theorem test_dmtc1 : after (exec (.dmtc1 2 4) (fpStart 0x24000000)) (fun t =>
    decide (t.readFpr 4 = 0xAAAAAAAABBCCDDEE)) = true := by decide
theorem test_lwc1 : after (exec (.lwc1 5 1 0) (fpStart 0x20000000)) (fun t =>
    decide (t.readFpr 4 = 0x3F80000022222222)) = true := by decide
theorem test_ldc1 : after (exec (.ldc1 4 1 0) (fpStart 0x24000000)) (fun t =>
    decide (t.readFpr 4 = 0x3F80000000000000)) = true := by decide
theorem test_swc1 : after (exec (.swc1 5 1 0) (fpStart 0x20000000)) (fun t =>
    decide (Memory.byteAt t.mem 0x103 = some 0x11 ∧ Memory.byteAt t.mem 0x104 = some 0)) = true := by decide
theorem test_sdc1 : after (exec (.sdc1 4 1 0) (fpStart 0x24000000)) (fun t =>
    decide (Memory.byteAt t.mem 0x103 = some 0x11 ∧ Memory.byteAt t.mem 0x104 = some 0x22)) = true := by
  decide
theorem test_cfc1 : after (exec (.cfc1 2 31) { base with fcr31 := 0x01000800 }) (fun t =>
    decide (t.readGpr 2 = 0x01000800)) = true := by decide
theorem test_ctc1 : after (exec (.ctc1 1 31) (base.setGpr 1 0x01800F83)) (fun t =>
    decide (t.fcr31 = 0x01800F83 ∧ t.pending = none)) = true := by decide
theorem test_ctc1_raises : after (exec (.ctc1 1 31) (base.setGpr 1 0xFFFFFFFFFFFFFFFF)) (fun t =>
    decide (t.fcr31 = 0x0183FFFF) && kindIs .floatingPoint t) = true := by decide

/-- Section 2.11: the branches on the condition bit, clear and set. -/
def bc1 (r : Instr × Option Word × Option Word) : Bool :=
  every (fun c : BitVec 32 × Option Word => after (exec r.1 { base with fcr31 := c.1 }) fun t =>
    decide (t.br.map BranchPending.target = c.2)) [(0, r.2.1), (0x800000, r.2.2)]
theorem test_bc1 : every bc1 [
     (.bc1f 4, some 0xFFFFFFFF80000114, some 0xFFFFFFFF80000108),
     (.bc1t 4, some 0xFFFFFFFF80000108, some 0xFFFFFFFF80000114),
     (.bc1fl 4, some 0xFFFFFFFF80000114, none), (.bc1tl 4, none, some 0xFFFFFFFF80000114)] = true := by
  decide

/-! ### Witnesses: a state and operands that meet the hypotheses of each statement

The statements without a witness here have no hypothesis beyond what the instruction's own
case split gives (every state and operand meets one of the cases). -/

/-- User mode without 64-bit operations, both coprocessors usable. -/
def user : State := { base with cp0 := { base.cp0 with status := 0x30000010 } }
/-- User mode, no coprocessor usable. -/
def bare : State := { base with cp0 := { base.cp0 with status := 0x10 } }
/-- A fault waiting for the next dispatch. -/
def faulted : State := { base with pending := some ⟨.tlbMiss .load, 0, some 0x401004, true, 0x40⟩ }
/-- 64-bit addresses in Kernel mode. -/
def wide : State := { base with cp0 := { base.cp0 with status := 0x80 } }
/-- An enabled, unmasked line. -/
def interrupted : State :=
  { base with cp0 := { base.cp0 with status := 0x401 }, irq := { base.irq with irq2 := true } }

theorem witness_DecodeEncode : (Instr.cop2 (2 ^ 26 - 1)).wf = true ∧ (Instr.sll 1 2 31).wf = true := by
  decide

theorem witness_DecodedWellFormed : decodeWord 0x24220005 = .ok (.addiu 2 1 5) := by decide

/-- The edges of every list of reserved words, and a word beside each. -/
def reservedWord (w : BitVec 32) : Bool := !(decodeWord w).isOk
def plainWord (w : BitVec 32) : Bool := (decodeWord w).isOk
theorem witness_ReservedWords :
    every reservedWord [0x4C000000, 0x70000000, 0xF8000000, 0x00000001, 0x0000003D, 0x04040000,
      0x04070000, 0x040D0000, 0x040F0000, 0x04140000, 0x041F0000] = true ∧
    every plainWord [0x48000000, 0xFC000000, 0x0000003E, 0x04030000, 0x04080000, 0x040E0000,
      0x04130000] = true := by decide

/-- R172: MFC0, DMFC0, MTC0, DMTC0 and what stands between them; with bit 25 set, by funct. -/
theorem witness_ReservedWords_cop0 :
    every reservedWord [0x40400000, 0x40600000, 0x40C00000, 0x41E00000, 0x42000000, 0x42000003,
      0x43E00007, 0x42000019] = true ∧
    every plainWord [0x40000000, 0x40200000, 0x40800000, 0x40A00000, 0x42000001, 0x43E00002,
      0x42000006, 0x42000008, 0x42000018] = true := by decide

/-- R173, R174: the codes of bits 25:21, the BC1 conditions, and the functs of each format. -/
theorem witness_ReservedWords_cop1 :
    every reservedWord [0x44600000, 0x44E00000, 0x45040000, 0x451F0000, 0x45200000, 0x46400000,
      0x46C00000, 0x46000010, 0x46000020, 0x46000026, 0x4600002F, 0x46200010, 0x46200021, 0x46800000,
      0x46800022, 0x46A00024] = true ∧
    every plainWord [0x44000000, 0x44C00000, 0x45030000, 0x4600000F, 0x46000021, 0x46000025, 0x46000030,
      0x4600003F, 0x46200020, 0x46800020, 0x46A00021] = true := by decide

theorem witness_StepRunsDecoded :
    let s := base.withFetchWord 32 0x24220005
    s.dispatch.pc.toNat % 4 = 0 ∧ s.dispatch.translate s.dispatch.pc .fetch = .physical 0x100 .cached ∧
      s.dispatch.busByte true 0x100 4 0 = 0x24 ∧
      s.dispatch.busByte true 0x100 4 1 = 0x22 ∧
      s.dispatch.busByte true 0x100 4 2 = 0x00 ∧
      s.dispatch.busByte true 0x100 4 3 = 0x05 ∧
      decode [0x24, 0x22, 0x00, 0x05] = .ok (.addiu 2 1 5, []) := by decide

theorem witness_UnrecognizedWordRaises :
    (base.withFetchWord 32 0x4C000000).dispatch.fetchWord = .word 0x4C000000 ∧
      ∃ e, decodeWord 0x4C000000 = .error e := ⟨by decide, _, rfl⟩

theorem witness_FetchFaults :
    ({ base with pc := 2 }.dispatch.pc.extractLsb' 0 2 ≠ 0) ∧
    ({ base with pc := 0x1000 }.dispatch.pc.extractLsb' 0 2 = 0 ∧
      { base with pc := 0x1000 }.dispatch.translate 0x1000 .fetch = .raises (.tlbMiss .fetch)) ∧
    (base.dispatch.pc.extractLsb' 0 2 = 0 ∧
      base.dispatch.translate base.dispatch.pc .fetch = .physical 0x100 .cached) := by decide

theorem witness_Dispatch :
    faulted.pending ≠ none ∧
    (interrupted.pending = none ∧ interrupted.interruptCondition = true ∧ interrupted.br = none) ∧
    ({ interrupted with br := some ⟨0x40, 0x20⟩ }.interruptCondition = true) ∧
    (base.pending = none ∧ base.interruptCondition = false) := by decide

theorem witness_InterruptCondition :
    (base.pending = none ∧ base.cp0.status.getLsbD 0 = false) ∧ faulted.pending ≠ none ∧
      interrupted.interruptCondition = true := by decide

theorem witness_ExceptionEntryRegisters :
    faulted.cp0.status.getLsbD 1 = false ∧
      { faulted with cp0 := { faulted.cp0 with status := 2 } }.cp0.status.getLsbD 1 = true := by decide

theorem witness_ExceptionVectors :
    (base.cp0.status.getLsbD 1 = false ∧ base.cp0.status.extractLsb' 3 2 = 0 ∧
      base.cp0.status.getLsbD 7 = false) ∧
    (wide.cp0.status.getLsbD 1 = false ∧ wide.cp0.status.getLsbD 7 = true) ∧
    State.reset.cp0.status.getLsbD 22 = true ∧ base.cp0.status.getLsbD 22 = false ∧
    FaultKind.syscall ≠ .tlbMiss .load := by decide

/-- Where a TLB miss goes under a Status. -/
def refillAt (r : BitVec 32 × Word) : Bool :=
  let s := { base with
    cp0 := { base.cp0 with status := r.1 }, pending := some ⟨.tlbMiss .load, 0, some 0x1000, false, 0x40⟩ }
  decide (s.dispatch.pc = r.2)

/-- R550: KX in Kernel (with ERL too), SX in Supervisor, UX in User, 0 in Undefined; each mode with its
own bit set, then with every bit but its own. -/
theorem test_refill_vector : every refillAt [(0x80, 0xFFFFFFFF80000080), (0x60, 0xFFFFFFFF80000000),
    (0x94, 0xFFFFFFFF80000080), (0x74, 0xFFFFFFFF80000000), (0x48, 0xFFFFFFFF80000080),
    (0xA8, 0xFFFFFFFF80000000), (0x30, 0xFFFFFFFF80000080), (0xD0, 0xFFFFFFFF80000000),
    (0xF8, 0xFFFFFFFF80000000), (0x400080, 0xFFFFFFFFBFC00280)] = true := by decide

theorem witness_ExceptionRecords :
    FaultKind.tlbModified.hasAddress = true ∧ FaultKind.syscall.hasAddress = false := by decide

theorem witness_CountAndTimer : base.timerIp = false ∧ { base with timerIp := true }.timerIp = true := by
  decide

/-- A list whose keys are distinct has at most one element with a given key. -/
theorem length_filter_le_one {A K : Type} (l : List A) (key : A → K) (p : A → Bool) (k : K)
    (hn : (l.map key).Nodup) (hp : ∀ a ∈ l, p a = true → key a = k) : (l.filter p).length ≤ 1 := by
  have h : (l.filter p).map key = List.replicate (l.filter p).length k := by
    refine List.eq_replicate_iff.2 ⟨by simp, fun b hb => ?_⟩
    obtain ⟨a, ha, rfl⟩ := List.mem_map.1 hb
    exact hp a (List.mem_filter.1 ha).1 (List.mem_filter.1 ha).2
  have hs : ((l.filter p).map key).Nodup := hn.sublist (List.filter_sublist.map key)
  rw [h] at hs
  exact List.nodup_replicate.1 hs

theorem base_unambiguous : base.TlbUnambiguous := by
  intro va
  refine length_filter_le_one _ (fun e => e.1.vpn2) _ (va.extractLsb' 13 27) (by decide) fun e hm he => ?_
  have h0 : ∀ e ∈ base.tlb.toList.zipIdx, e.1.vpnMask = BitVec.allOnes 27 := by decide
  simp only [TlbEntry.matchesVa, h0 e hm, Bool.and_eq_true, decide_eq_true_eq, BitVec.and_allOnes] at he
  exact he.1.2

theorem witness_NoStop : base.Safe := base_unambiguous

/-- The demo state meets the invariant. -/
theorem base_inv : base.Inv where
  mem     := by decide
  zero    := by decide
  fcr31   := by decide
  tlb     := by decide
  ld      := by decide
  pending := fun p h => by cases h
  alone   := by decide
  cp0     := by
    constructor
    case config => exact (show ∀ e : BitVec 3, (0#1 ++ e ++ 0x006E460#28) &&& 0x80FF7FF0 = 0x00066460 by decide) _
    case configEc => exact (show ∀ e : BitVec 3, (0#1 ++ e ++ 0x006E460#28).extractLsb' 28 3 = e by decide) _
    all_goals decide

/-- A state of the invariant whose next step is one instruction. -/
theorem witness_StepInvariant :
    (base.withFetchWord 32 0x24220005).Inv ∧ ∃ t, step (base.withFetchWord 32 0x24220005) = .next t :=
  ⟨{ base_inv with mem := by decide }, _, rfl⟩

/-- A store that translates and one that does not; a store shape of every kind, with its bytes. -/
theorem witness_Footprint :
    (∃ t, exec (.sc 2 1 0) loaded = .next t) ∧ (∃ t, exec (.sw 2 0 0) loaded = .next t) ∧
    loaded.translate 0xFFFFFFFFA0000102 .store = .physical 0x102 .uncached ∧
    (∀ pa attr, loaded.translate 0 .store ≠ .physical pa attr) ∧
    (Instr.sh 2 1 2).storeShape.map (·.span 0xFFFFFFFFA0000102 0x102) = some (0x102, 2) ∧
    (Instr.swl 2 1 2).storeShape.map (·.span 0xFFFFFFFFA0000102 0x102) = some (0x102, 2) ∧
    (Instr.swr 2 1 2).storeShape.map (·.span 0xFFFFFFFFA0000102 0x102) = some (0x100, 3) ∧
    (Instr.sdr 2 1 7).storeShape.map (·.span 0xFFFFFFFFA0000107 0x107) = some (0x100, 8) ∧
    (Instr.lw 2 1 0).storeShape = none :=
  ⟨⟨_, rfl⟩, ⟨_, rfl⟩, by decide, by intro pa attr; rw [show loaded.translate 0 .store =
    .raises (.tlbMiss .store) by decide]; simp, by decide, by decide, by decide, by decide, rfl⟩

/-- A fault with an address, one with a coprocessor number, one that set the Cause field of FCR31, and
CTC1, which wrote all of it. -/
theorem witness_PreciseFaults :
    (∃ t p, base.pending = none ∧
      runFetched ({ base with pc := 2 }.fetchWord) { base with pc := 2 } = .next t ∧
      t.pending = some p ∧ p.kind.hasAddress = true) ∧
    (∃ t p, bare.pending = none ∧ run 0x46062080 bare = .next t ∧ t.pending = some p ∧ p.ce ≠ 0) ∧
    (∃ t p, run 0x46062080 (base.setFpr 4 1) = .next t ∧ t.pending = some p ∧
      t.fcr31 ≠ (base.setFpr 4 1).fcr31) ∧
    (∃ t p, run 0x44C1F800 (base.setGpr 1 0xFFFFFFFF) = .next t ∧ t.pending = some p ∧
      t.fcr31.getLsbD 23 ≠ base.fcr31.getLsbD 23) :=
  ⟨⟨_, _, rfl, rfl, rfl, by decide⟩, ⟨_, _, rfl, rfl, rfl, by decide⟩, ⟨_, _, rfl, rfl, by decide⟩,
    ⟨_, _, rfl, rfl, by decide⟩⟩

theorem witness_PipelineState :
    (∃ t, exec (.lw 2 1 0) loaded = .next t ∧ t.pending = loaded.pending ∧ loaded.pending = none) ∧
    (∃ t b, exec (.beq 0 0 4) base = .next t ∧ t.pending = base.pending ∧ t.br = some b) :=
  ⟨⟨_, rfl, rfl, rfl⟩, _, _, rfl, rfl, rfl⟩

theorem witness_ModeChanges :
    (∃ t, exec .eret { base with cp0 := { base.cp0 with status := 0x12 } } = .next t ∧
      t.mode ≠ .kernel) ∧ ∃ t, exec (.addu 1 2 3) base = .next t ∧ t.mode = base.mode :=
  ⟨⟨_, rfl, by decide⟩, _, rfl, by decide⟩

/-- An instruction that completes, one that is turned away, and a state that differs where it is
hidden. -/
theorem witness_SystemStateProtected :
    bare.copUsable0 = false ∧ (∃ t, exec (.addu 1 2 3) bare = .next t) ∧
      (∃ t, exec (.mfc0 1 9) bare = .next t) ∧
      (State.hideSystem { Cp0.reset with count := 7 } bare.irq true 3 bare).cp0.count ≠ bare.cp0.count ∧
      (State.hideSystem Cp0.reset bare.irq true 3 bare).asid = bare.asid :=
  ⟨by decide, ⟨_, rfl⟩, ⟨_, rfl⟩, by decide, by decide⟩

theorem witness_DisabledDoubleword :
    user.ops64 = false ∧ user.copUsable0 = true ∧ user.copUsable1 = true ∧
      (Instr.daddu 1 2 3).is64Bit = true ∧ (Instr.dmfc0 1 2).is64Bit = true ∧
      (Instr.dmtc1 1 2).is64Bit = true ∧ (Instr.dmfc0 1 2).coprocessor = some 0 ∧
      (Instr.dmtc1 1 2).coprocessor = some 1 := by decide

theorem witness_CoprocessorUnusable :
    bare.mode ≠ .kernel ∧ bare.cp0.status.getLsbD 28 = false ∧ bare.cp0.status.getLsbD 29 = false ∧
      Instr.eret.coprocessor = some 0 ∧ (Instr.bc1f 0).coprocessor = some 1 := by decide

/-- R572: CU0 opens coprocessor 0 in every mode, Kernel mode (EXL, ERL or KSU 0) without it; CU1 alone
opens coprocessor 1. -/
theorem test_usable : every (fun r : BitVec 32 × Bool × Bool =>
    let s := { base with cp0 := { base.cp0 with status := r.1 } }
    s.copUsable0 == r.2.1 && s.copUsable1 == r.2.2 &&
      after (exec (.mfc0 2 12) s) (fun t => t.pending.isNone == r.2.1) &&
      after (exec (.mfc1 2 4) s) (fun t => t.pending.isNone == r.2.2))
    [(0, true, false), (0x10, false, false), (0x12, true, false), (0x14, true, false),
      (0x08, false, false), (0x18, false, false), (0x10000010, true, false), (0x10000008, true, false),
      (0x10000018, true, false), (0x20000000, true, true), (0x20000010, false, true),
      (0xC0000010, false, false)] = true := by decide

/-- The edges of the word range: the largest sum that fits, and the first that does not. -/
theorem witness_TrappingWord :
    let a := fun s : State => ((s.readGpr 1).setWidth 32).toInt
    a (base.setGpr 1 0x7FFFFFFE) + 1 < 2 ^ 31 ∧ ¬ a (base.setGpr 1 0x7FFFFFFF) + 1 < 2 ^ 31 ∧
      a (base.setGpr 1 0xFFFFFFFF80000001) - 1 ≥ -2 ^ 31 ∧
      ¬ a (base.setGpr 1 0xFFFFFFFF80000000) - 1 ≥ -2 ^ 31 := by decide

/-- The edges of the doubleword range, with 64-bit operations enabled. -/
theorem witness_DoublewordArithmetic :
    let a := fun s : State => (s.readGpr 1).toInt
    base.ops64 = true ∧ a (base.setGpr 1 0x7FFFFFFFFFFFFFFE) + 1 < 2 ^ 63 ∧
      ¬ a (base.setGpr 1 0x7FFFFFFFFFFFFFFF) + 1 < 2 ^ 63 ∧
      a (base.setGpr 1 0x8000000000000001) - 1 ≥ -2 ^ 63 ∧
      ¬ a (base.setGpr 1 0x8000000000000000) - 1 ≥ -2 ^ 63 := by decide

theorem witness_ShiftWord : 0 < 32 ∧ 31 < 32 := by decide

theorem witness_ShiftDoubleword : base.ops64 = true ∧ 0 < 32 ∧ 31 < 32 := by decide

theorem witness_Multiply : base.ops64 = true := by decide

/-- A normal case, and both kinds of corner, in the word and the doubleword. -/
theorem witness_Divide :
    base.ops64 = true ∧ (1 : BitVec 32) ≠ 0 ∧
      ((0x80000000#32).toInt = -2 ^ 31 ∧ (0xFFFFFFFF#32).toInt = -1) ∧
      (0x8000000000000000#64).toInt = -2 ^ 63 ∧ (0xFFFFFFFFFFFFFFFF#64).toInt = -1 ∧
      ((0x80000001#32).toInt ≠ -2 ^ 31) := by decide

/-- Equal, below, zero and above: every side of every branch condition. -/
def BranchSides : Prop :=
  (base.readGpr 1).toInt = (base.readGpr 2).toInt ∧ (base.readGpr 1).toInt = 0 ∧
    ((base.setGpr 1 0xFFFFFFFFFFFFFFFF).readGpr 1).toInt < 0 ∧
    0 < ((base.setGpr 1 1).readGpr 1).toInt ∧
    ((base.setGpr 1 1).readGpr 1).toInt ≠ ((base.setGpr 1 1).readGpr 2).toInt

theorem witness_ConditionalBranches : BranchSides := by unfold BranchSides; decide
theorem witness_LikelyBranches : BranchSides := by unfold BranchSides; decide

/-- The effective address of `x[1]` translates at the first, a middle and the last byte of a
doubleword, for a load and for a store; the first is aligned for every size. -/
def AccessMet : Prop :=
  let ea := fun imm : BitVec 16 => loaded.readGpr 1 + imm.signExtend 64
  every (fun r : BitVec 16 × Intent => decide
    (loaded.translate (ea r.1) r.2 = .physical (0x100 + r.1.setWidth 32) .uncached))
    [(0, .load), (0, .store), (3, .load), (3, .store), (7, .load), (7, .store)] = true ∧
  (ea 0).toNat % 2 = 0 ∧ (ea 0).toNat % 4 = 0 ∧ (ea 0).toNat % 8 = 0 ∧
  (ea 3).toNat % 4 = 3 ∧ (ea 7).toNat % 8 = 7 ∧ loaded.ops64 = true ∧ loaded.copUsable1 = true

theorem access_met : AccessMet := by unfold AccessMet; decide

theorem witness_AlignedLoads : AccessMet := access_met
theorem witness_PartialLoads : AccessMet := access_met
theorem witness_AlignedStores : AccessMet := access_met
theorem witness_PartialStores : AccessMet := access_met
theorem witness_LoadLinked : AccessMet := access_met
theorem witness_Cop1LoadsStores : AccessMet := access_met

theorem witness_AccessFaults :
    let ea := fun imm : BitVec 16 => loaded.readGpr 1 + imm.signExtend 64
    (ea 1).toNat % 2 ≠ 0 ∧ (ea 2).toNat % 4 ≠ 0 ∧ (ea 4).toNat % 8 ≠ 0 ∧
      loaded.ops64 = true ∧ loaded.copUsable1 = true ∧
      (∀ n ∈ [1, 2, 4, 8], (loaded.readGpr 0 + (0 : BitVec 16).signExtend 64).toNat % n = 0) ∧
      loaded.translate (loaded.readGpr 0 + (0 : BitVec 16).signExtend 64) .load =
        .raises (.tlbMiss .load) ∧
      loaded.translate (loaded.readGpr 0 + (0 : BitVec 16).signExtend 64) .store =
        .raises (.tlbMiss .store) := by decide

theorem witness_StoreConditional :
    AccessMet ∧ loaded.llbit = false ∧ { loaded with llbit := true }.llbit = true :=
  ⟨access_met, rfl, rfl⟩

/-- Both ends of a word and of a doubleword translate, and a memory owns where they are written. -/
def EndsMap (s : State) (va : Word) (pa : PAddr) (last : Nat) : Prop :=
  (∀ intent ∈ [Intent.load, Intent.store],
    (∃ attr, s.translate va intent = .physical pa attr) ∧
    ∃ attr, s.translate (va + BitVec.ofNat 64 last) intent = .physical (pa + BitVec.ofNat 32 last) attr) ∧
  s.owner pa = .ram ∧ s.owner ((pa + BitVec.ofNat 32 last) &&& ~~~BitVec.ofNat 32 last) = .ram

theorem endsMap_of {s : State} {va : Word} {pa : PAddr} {last : Nat} {attr : CacheAttr}
    (h : every (fun i => decide (s.translate va i = .physical pa attr ∧
      s.translate (va + BitVec.ofNat 64 last) i = .physical (pa + BitVec.ofNat 32 last) attr))
      [.load, .store] = true)
    (o : s.owner pa = .ram) (o' : s.owner ((pa + BitVec.ofNat 32 last) &&& ~~~BitVec.ofNat 32 last) = .ram) :
    EndsMap s va pa last :=
  ⟨fun i hi => by
    have := List.all_eq_true.1 h i hi
    simp only [decide_eq_true_eq] at this
    exact ⟨⟨attr, this.1⟩, attr, this.2⟩, o, o'⟩

/-- Unaligned addresses of a direct window and of a mapped page, in Kernel and in User mode; the
largest displacement; a load pending for another register. -/
theorem witness_UnalignedRoundTrip :
    EndsMap loaded 0xFFFFFFFFA0000101 0x101 3 ∧ EndsMap loaded 0xFFFFFFFFA0000101 0x101 7 ∧
    EndsMap { mapped with cp0 := { mapped.cp0 with status := 0x10 } } 0x00400FFB 0x20FFB 3 ∧
    EndsMap loaded 0xFFFFFFFF9FFFFFFC 0x1FFFFFFC 3 ∧
    (0x7FFC : BitVec 16).toInt + 3 < 2 ^ 15 ∧ (0x7FF8 : BitVec 16).toInt + 7 < 2 ^ 15 ∧
    (∀ l, { loaded with ld := some ⟨9, 0⟩ }.ld = some l → l.reg ≠ 3 ∧ l.reg ≠ 1) ∧ loaded.ops64 = true :=
  ⟨endsMap_of (attr := .uncached) (by decide) (by decide) (by decide),
    endsMap_of (attr := .uncached) (by decide) (by decide) (by decide),
    endsMap_of (attr := .cached) (by decide) (by decide) (by decide),
    endsMap_of (attr := .cached) (by decide) (by decide) (by decide),
    by decide, by decide, by rintro l ⟨⟩; decide, by decide⟩

/-- The case behind `UnalignedRoundTrip`: SWL, SWR, LWL, LWR at A + 1 (section 2.7). -/
theorem test_unaligned_pair :
    let s := loaded.setGpr 3 0x0102030405060708
    after (exec (.swl 3 1 1) s) (fun t => after (exec (.swr 3 1 4) t) fun t =>
      after (exec (.lwl 1 1 1) t) fun t => after (exec (.lwr 1 1 4) t) fun t =>
        bytesAre t 0x101 [5, 6, 7, 8] && decide (t.ld = some ⟨1, 0x05060708⟩)) = true := by decide

/-- The same for SDL, SDR, LDL, LDR at A + 3. -/
theorem test_unaligned_double :
    let s := loaded.setGpr 3 0x0102030405060708
    after (exec (.sdl 3 1 3) s) (fun t => after (exec (.sdr 3 1 10) t) fun t =>
      after (exec (.ldl 1 1 3) t) fun t => after (exec (.ldr 1 1 10) t) fun t =>
        decide (t.ld = some ⟨1, 0x0102030405060708⟩)) = true := by decide

/-- Each side of the signed and unsigned conditions, and CACHE allowed. -/
theorem witness_SystemAndTraps :
    base.copUsable0 = true ∧ (base.readGpr 1).toInt ≤ (base.readGpr 2).toInt ∧
      ¬ (base.readGpr 1).toInt < (base.readGpr 2).toInt ∧
      ((base.setGpr 1 0xFFFFFFFFFFFFFFFF).readGpr 1).toInt < (base.readGpr 2).toInt ∧
      ¬ ((base.setGpr 1 0xFFFFFFFFFFFFFFFF).readGpr 1).toNat < (base.readGpr 2).toNat := by decide

theorem witness_MovesFromCp0 : base.copUsable0 = true ∧ base.ops64 = true := by decide

theorem witness_MovesToCp0 : base.copUsable0 = true ∧ base.ops64 = true := by decide

theorem witness_TlbReadWrite :
    base.Inv ∧ base.copUsable0 = true ∧ base.cp0.wired.toNat ≤ 31 := ⟨base_inv, by decide, by decide⟩

/-- `Covers` as a conjunction that evaluates. -/
theorem covers_iff (e : TlbEntry) (asid : BitVec 8) (va : Word) : e.Covers asid va ↔
    e.region = va.extractLsb' 62 2 ∧
      (∀ k < 27, e.mask.getLsbD k = false → e.vpn2.getLsbD k = va.getLsbD (13 + k)) ∧
      (e.global = true ∨ e.asid = asid) :=
  ⟨fun h => ⟨h.region, h.page, h.space⟩, fun h => ⟨h.1, h.2.1, h.2.2⟩⟩

/-- Two entries for one address. -/
def doubled : State := { mapped with tlb := mapped.tlb.set 7 (mapped.tlbEntry 3) }

set_option maxRecDepth 10000 in
/-- No entry, exactly one entry, two entries: the three cases of a probe. -/
theorem witness_TlbProbe :
    base.copUsable0 = true ∧ mapped.copUsable0 = true ∧ doubled.copUsable0 = true ∧
    (∀ i, ¬ (base.tlbEntry i).Covers 0 0) ∧ base.cp0.entryHi = 0 ∧
    ((mapped.tlbEntry 3).Covers 5 0x00400005 ∧
      ∀ j, (mapped.tlbEntry j).Covers 5 0x00400005 → j = 3) ∧
    (doubled.tlbEntry 3).Covers 5 0x00400005 ∧ (doubled.tlbEntry 7).Covers 5 0x00400005 := by
  simp only [covers_iff]; decide

/-- `mapped` with the odd half of entry 3 invalid. -/
def halved : State :=
  { mapped with tlb := mapped.tlb.set 3 { mapped.tlbEntry 3 with v1 := false, d1 := false } }

/-- The edges of the two ranges and of every window, and a mode of each kind. -/
theorem witness_Translation :
    (¬ (0x80000000#64).toInt < 2 ^ 31 ∧ ¬ -2 ^ 31 ≤ (0xFFFFFFFF7FFFFFFF#64).toInt) ∧
    ((0x7FFFFFFF#64).toInt < 2 ^ 31 ∧ -2 ^ 31 ≤ (0xFFFFFFFF80000000#64).toInt) ∧
    every (fun r : Word × Nat => decide ((r.1.extractLsb' 29 3).toNat = r.2))
      [(0x7FFFFFFF, 3), (0xFFFFFFFF80000000, 4), (0xFFFFFFFF9FFFFFFF, 4), (0xFFFFFFFFA0000000, 5),
        (0xFFFFFFFFBFFFFFFF, 5), (0xFFFFFFFFC0000000, 6), (0xFFFFFFFFFFFFFFFF, 7)] = true ∧
    bare.cp0.status.getLsbD 1 = false ∧ bare.cp0.status.getLsbD 2 = false ∧
      bare.cp0.status.extractLsb' 3 2 = 2 ∧ (0x08#32).extractLsb' 3 2 = 1 := by decide

set_option maxRecDepth 10000 in
/-- One entry with either half, no entry, two entries. -/
theorem witness_Translation_entries :
    (mapped.tlbEntry 3).Covers 5 0x00400004 ∧ (mapped.tlbEntry 3).Covers 5 0x00401004 ∧
      (∀ j, (mapped.tlbEntry j).Covers 5 0x00401004 → j = 3) ∧
      (∀ j, ¬ (mapped.tlbEntry j).Covers 5 0x00403004) ∧
      (doubled.tlbEntry 7).Covers 5 0x00400004 ∧ (doubled.tlbEntry 3).Covers 5 0x00400004 ∧
      (halved.tlbEntry 3).Covers 5 0x00401004 := by
  simp only [covers_iff]; decide

/-- A half that is valid and clean, one valid and dirty, one invalid. -/
theorem witness_Translation_halves :
    (halved.tlbEntry 3).v1 = false ∧ (mapped.tlbEntry 3).d1 = false ∧ (mapped.tlbEntry 3).v1 = true ∧
      (mapped.tlbEntry 3).d0 = true ∧ (mapped.tlbEntry 3).v0 = true := by decide

theorem witness_ExceptionReturn :
    State.reset.copUsable0 = true ∧ State.reset.cp0.status.getLsbD 2 = true ∧
      base.copUsable0 = true ∧ base.cp0.status.getLsbD 2 = false := by decide

/-- The value is the register masked; cause E, an enabled cause, and neither. -/
theorem witness_Cop1Moves :
    base.copUsable1 = true ∧ base.ops64 = true ∧
    (0x00020000#32 &&& 0x0183FFFF).getLsbD 17 = true ∧
    ((0x00010800#32).getLsbD (12 + 4) = true ∧ (0x00010800#32).getLsbD (7 + 4) = true) ∧
    ((0x0001F000#32).getLsbD 17 = false ∧
      ¬ ∃ k < 5, (0x0001F000#32).getLsbD (12 + k) = true ∧ (0x0001F000#32).getLsbD (7 + k) = true) := by
  decide

theorem witness_Cop1Branches :
    base.copUsable1 = true ∧ base.fcr31.getLsbD 23 = false ∧
      { base with fcr31 := 0x800000 }.fcr31.getLsbD 23 = true := by decide

set_option maxRecDepth 20000 in
/-- R435: 1/5 and -1/5 under each RM of FCR31 (the pattern of 1/5 lies between ...99 and ...9A, nearer to
...9A): every mode gives another pair. -/
theorem test_fp_modes : every (fpAfter true) [
    (0x46262083, 0x3FF0000000000000, 0x4014000000000000, 0, some 0x3FC999999999999A, 1),
    (0x46262083, 0x3FF0000000000000, 0x4014000000000000, 1, some 0x3FC9999999999999, 1),
    (0x46262083, 0x3FF0000000000000, 0x4014000000000000, 2, some 0x3FC999999999999A, 1),
    (0x46262083, 0x3FF0000000000000, 0x4014000000000000, 3, some 0x3FC9999999999999, 1),
    (0x46262083, 0xBFF0000000000000, 0x4014000000000000, 0, some 0xBFC999999999999A, 1),
    (0x46262083, 0xBFF0000000000000, 0x4014000000000000, 1, some 0xBFC9999999999999, 1),
    (0x46262083, 0xBFF0000000000000, 0x4014000000000000, 2, some 0xBFC9999999999999, 1),
    (0x46262083, 0xBFF0000000000000, 0x4014000000000000, 3, some 0xBFC999999999999A, 1)] = true := by decide

set_option maxRecDepth 20000 in
/-- R433: half the smallest normal, with FS clear, and with FS under each RM; Enable U with FS. -/
theorem test_fp_flush : every (fpAfter true) [
    (0x46262082, 0x0010000000000000, 0x3FE0000000000000, 0, none, 0),
    (0x46262082, 0x0010000000000000, 0x3FE0000000000000, 0x01000000, some 0, 3),
    (0x46262082, 0x0010000000000000, 0x3FE0000000000000, 0x01000001, some 0, 3),
    (0x46262082, 0x0010000000000000, 0x3FE0000000000000, 0x01000002, some 0x0010000000000000, 3),
    (0x46262082, 0x0010000000000000, 0x3FE0000000000000, 0x01000003, some 0, 3),
    (0x46262082, 0x0010000000000000, 0x3FE0000000000000, 0x01000100, none, 0)] = true := by decide

/-- R432: an enabled I raises, with Cause I alone, the destination kept. -/
theorem test_fp_enabled :
    after (run 0x46262083 (({ base with fcr31 := 0x80 }.setFpr 4 0x3FF0000000000000).setFpr 6
      0x4014000000000000)) (fun t => kindIs .floatingPoint t &&
        decide (t.fcr31 = 0x1080 ∧ t.readFpr 2 = 0)) = true := by decide

/-- R42, log 18: with FR 0 an odd number names the even register, as operand and as destination. -/
theorem test_fp_pair :
    after (run 0x462728C0 (({ base with cp0 := { base.cp0 with status := 0x20000000 } }.setFpr 4
      0x3FF0000000000000).setFpr 6 0x4000000000000000)) (fun t =>
        decide (t.readFpr 2 = 0x4008000000000000 ∧ t.readFpr 3 = 0)) = true := by decide

/-- A result without an enabled exception, one with, and an operand handed to software. -/
theorem witness_FpWrapper :
    base.copUsable1 = true ∧ fpDiv .single base.fpEnv 0x3F800000 0x40400000 = .value 0x3EAAAAAB 1 ∧
      (1 : FpExceptions) &&& base.fcr31.extractLsb' 7 5 = 0 ∧
      (1 : FpExceptions) &&& { base with fcr31 := 0x80 }.fcr31.extractLsb' 7 5 ≠ 0 ∧
      fpAdd .single base.fpEnv 1 0 = .unimplemented ∧
      base.fpu = .standard ∧ { base with fpu := .free }.fpu = .free ∧
      fpClass .single 0x3F800000 = .normal ∧ fpClass .single 0x40400000 = .normal ∧
      fpAdd .single base.fpEnv 0x3F800000 0x40000000 = .value 0x40400000 0 := by decide

/-- Ordered, unordered and signalling operands, Enable V clear and set. -/
theorem witness_FpCompare :
    base.copUsable1 = true ∧ fpClass .single 0x3F800000 = .normal ∧
      fpClass .single 0x7F800001 = .quietNan ∧ fpClass .single 0x7FC00000 = .signallingNan ∧
      fpClass .single 0xFF800000 = .infinity ∧
      base.fcr31.getLsbD 11 = false ∧ { base with fcr31 := 0x800 }.fcr31.getLsbD 11 = true := by decide

/-- Numbers of single patterns, by their fields. -/
theorem number (v : Word) (n : Bool) (e m : Nat) (hn : fpSign .single v = n)
    (he : fpExp .single v = e + 1) (hm : fpFrac .single v = m) :
    fpNumber .single v = (if n then -1 else 1) * (2 ^ ((e : ℤ) - 126) * (1 + (m : ℝ) / 8388608)) := by
  rw [fpNumber, hn, he, hm, if_neg (Nat.succ_ne_zero e), show FpFormat.single.bias = 127 from rfl,
    show FpFormat.single.fracBits = 23 from rfl]
  push_cast
  rw [show (e : ℤ) + 1 - 127 = e - 126 by ring]
  norm_num

theorem number_one : fpNumber .single 0x3F800000 = 1 := by
  rw [number _ false 126 0 (by decide) (by decide) (by decide)]; norm_num
theorem number_half : fpNumber .single 0x3F000000 = 1 / 2 := by
  rw [number _ false 125 0 (by decide) (by decide) (by decide)]; norm_num
theorem number_two : fpNumber .single 0x40000000 = 2 := by
  rw [number _ false 127 0 (by decide) (by decide) (by decide)]; norm_num
theorem number_three : fpNumber .single 0x40400000 = 3 := by
  rw [number _ false 127 4194304 (by decide) (by decide) (by decide)]; norm_num
theorem number_four : fpNumber .single 0x40800000 = 4 := by
  rw [number _ false 128 0 (by decide) (by decide) (by decide)]; norm_num
theorem number_minus : fpNumber .single 0xCF000000 = -2 ^ 31 := by
  rw [number _ true 157 0 (by decide) (by decide) (by decide)]; norm_num
theorem number_long : fpNumber .single 0x5A000000 = 2 ^ 53 := by
  rw [number _ false 179 0 (by decide) (by decide) (by decide)]; norm_num
theorem number_deep : fpNumber .single 0xDB000000 = -2 ^ 55 := by
  rw [number _ true 181 0 (by decide) (by decide) (by decide)]; norm_num
theorem number_least : fpNumber .single 0x00800000 = 2 ^ (-126 : ℤ) := by
  rw [number _ false 0 0 (by decide) (by decide) (by decide)]; norm_num
theorem number_huge : fpNumber .single 0x7F000000 = 2 ^ (127 : ℤ) := by
  rw [number _ false 253 0 (by decide) (by decide) (by decide)]; norm_num
theorem number_zero : fpNumber .single 0 = 0 := by
  rw [fpNumber, show fpExp .single 0 = 0 by decide, show fpFrac .single 0 = 0 by decide]; simp

/-- Exact sums, differences, products, quotients, roots, and conversions at the edges of their
ranges; each zero. -/
theorem witness_FpExact :
    let num := fpNumber .single
    every (fun v : Word => decide (fpClass .single v = .normal ∧ v.toNat < 2 ^ 32)) [0x3F800000,
      0x3F000000, 0x40000000, 0x40400000, 0x40800000, 0xCF000000, 0x5A000000, 0xDB000000] = true ∧
    fpClass .single 0 = .zero ∧
    num 0x3F800000 + num 0x40000000 = num 0x40400000 ∧
    num 0x40400000 - num 0x40000000 = num 0x3F800000 ∧
    num 0x40000000 * num 0x3F000000 = num 0x3F800000 ∧
    num 0x3F800000 / num 0x40000000 = num 0x3F000000 ∧
    (num 0 + num 0 = 0 ∧ num 0x40000000 - num 0x40000000 = 0 ∧ num 0 * num 0x40000000 = 0) ∧
    num 0x40000000 ≠ 0 ∧ num 0x40000000 * num 0x40000000 = num 0x40800000 ∧
    num 0xCF000000 = ((-2 ^ 31 : ℤ) : ℝ) ∧ num 0x5A000000 = ((2 ^ 53 : ℤ) : ℝ) ∧
    num 0xDB000000 = (((0xFF80000000000000 : Word).toInt : ℤ) : ℝ) ∧
    num 0xCF000000 = ((((0x80000000 : Word).setWidth 32).toInt : ℤ) : ℝ) := by
  refine ⟨by decide, by decide, ?_⟩
  simp only [number_one, number_half, number_two, number_three, number_four, number_minus,
    number_long, number_deep, number_zero]
  refine ⟨by norm_num, by norm_num, by norm_num, by norm_num, by norm_num, by norm_num, by norm_num,
    by norm_num, by norm_num, ?_, ?_⟩
  · rw [show (0xFF80000000000000 : Word).toInt = -2 ^ 55 by decide]; norm_num
  · rw [show ((0x80000000 : Word).setWidth 32).toInt = -2 ^ 31 by decide]; norm_num

/-- One third, rounded in every mode. -/
theorem witness_FpRounding_div :
    let num := fpNumber .single
    fpClass .single 0x3F800000 = .normal ∧ fpClass .single 0x40400000 = .normal ∧
    num 0x40400000 ≠ 0 ∧ num 0x3F800000 / num 0x40400000 ≠ 0 ∧ (1 : FpExceptions) &&& 0x1E = 0 ∧
    fpDiv .single (env .nearest) 0x3F800000 0x40400000 = .value 0x3EAAAAAB 1 ∧
    fpDiv .single (env .towardZero) 0x3F800000 0x40400000 = .value 0x3EAAAAAA 1 ∧
    fpDiv .single (env .up) 0x3F800000 0x40400000 = .value 0x3EAAAAAB 1 ∧
    fpDiv .single (env .down) 0x3F800000 0x40400000 = .value 0x3EAAAAAA 1 := by
  refine ⟨by decide, by decide, ?_, ?_, by decide, by decide, by decide, by decide, by decide⟩ <;>
    simp only [number_one, number_three] <;> norm_num

set_option maxRecDepth 20000 in
/-- A tiny product with FS clear and set, an overflow in two modes, a root, and the edges of the
conversions, by the spec's rules; the operands are normal and the exact results are not zero. -/
theorem witness_FpRounding :
    let num := fpNumber .single
    every (fun v : Word => decide (fpClass .single v = .normal)) [0x00800000, 0x3F000000, 0x7F000000,
      0x40000000, 0x40400000, 0xCF000000, 0x5A000000] = true ∧
    num 0x00800000 * num 0x3F000000 ≠ 0 ∧ |num 0x00800000 * num 0x3F000000| < fpLeast .single ∧
    (0 : ℝ) ≤ num 0x40000000 ∧ num 0x7F000000 + num 0x7F000000 = 2 ^ (128 : ℤ) ∧
    every fpGives [
      (fpMul .single ⟨.up, true, 0, 0⟩ 0x00800000 0x3F000000, 0x00800000, 3),
      (fpMul .single ⟨.down, true, 0, 0⟩ 0x00800000 0x3F000000, 0, 3),
      (fpAdd .single (env .nearest) 0x7F000000 0x7F000000, 0x7F800000, 5),
      (fpAdd .single (env .towardZero) 0x7F000000 0x7F000000, 0x7F7FFFFF, 5),
      (fpSqrt .single (env .nearest) 0x40000000, 0x3FB504F3, 1),
      (fpConvert .double .single (env .nearest) 0x3FF8000000000000, 0x3FC00000, 0),
      (fpOfWord .single (env .up) 0x01000001, 0x4B800001, 1),
      (fpToWord .single .nearest 0x40200000, 2, 1),
      (fpToWord .single .nearest 0xCF000000, 0x80000000, 0)] = true ∧
    fpMul .single (env .nearest) 0x00800000 0x3F000000 = .unimplemented ∧
    fpToWord .single .nearest 0x4F000000 = .unimplemented ∧
    fpToLong .single .nearest 0x5A000000 = .value (2 ^ 53) 0 ∧
    fpToLong .single .nearest 0x5A000001 = .unimplemented := by
  refine ⟨by decide, ?_, ?_, ?_, ?_, by decide, by decide, by decide, by decide, by decide⟩
  · simp only [number_least, number_half]; norm_num
  · simp only [number_least, number_half, fpLeast, show FpFormat.single.bias = 127 from rfl]
    rw [abs_of_pos (by positivity)]; norm_num
  · simp only [number_two]; norm_num
  · simp only [number_huge]; norm_num

/-- A pattern of every class, in both formats, and an integer on each side of the range of R434(e). -/
theorem witness_FpSpecial :
    every (fun r : Word × FpClass => decide (fpClass .single r.1 = r.2)) [(0, .zero), (1, .denormal),
      (0x007FFFFF, .denormal), (0x00800000, .normal), (0xFF800000, .infinity), (0x7FBFFFFF, .quietNan),
      (0x7FC00000, .signallingNan)] = true ∧
    every (fun r : Word × FpClass => decide (fpClass .double r.1 = r.2)) [(1, .denormal),
      (0x7FF0000000000000, .infinity), (0x7FF7FFFFFFFFFFFF, .quietNan),
      (0x7FF8000000000000, .signallingNan)] = true ∧
    (0x80000000000000 : Word).toInt = 2 ^ 55 ∧ (0x7FFFFFFFFFFFFF : Word).toInt < 2 ^ 55 := by decide

/-! ### The bus, the units and the host (log 5, log 8, log 19, R90, R581) -/

/-- Memory at 0x000-0x0FF, ROM at 0x100, a device at 0x200, nobody at 0x300, memory above. -/
def board : State :=
  { loaded with ports := [⟨0x100, 0x1FF, .rom⟩, ⟨0x200, 0x2FF, .device⟩, ⟨0x300, 0x3FF, .nobody⟩] }

/-- A write to anything but memory leaves the memories (R141); memory beside it takes it. -/
theorem test_bus_writes : every (fun r : Nat × Bool =>
    after (exec (.sw 2 1 (BitVec.ofNat 16 r.1)) board) fun t => decide (t.pending = none) &&
      decide (t.mem = board.mem) == r.2) [(0, true), (0x100, true), (0x200, true), (0x300, false)] = true := by
  decide

/-- ROM reads what it holds; a device gives the value of its read, which nothing constrains. -/
theorem test_bus_reads :
    board.readBus 0x100 4 = 0x8192A3B4 ∧
      board.busByte false 0x200 1 0 = Memory.byteOf (Config.deviceRead board.draws false 0x200 1) 1 0 :=
  ⟨by decide, rfl⟩

/-- A word placed where a device stood is what the next step runs. -/
theorem test_fetch_word_on_device :
    after (step ({ State.reset with ports := [⟨0, 0xFFFFFFFF, .device⟩] }.withFetchWord 32 0x24021234))
      (fun t => decide (t.readGpr 2 = 0x1234)) = true := by decide

/-- The exact subset does not depend on the unit (R436). -/
theorem test_free_unit_exact :
    after (run 0x46262080 (({ base with fpu := .free }.setFpr 4 0x3FF0000000000000).setFpr 6
      0x4000000000000000)) (fun t => decide (t.readFpr 2 = 0x4008000000000000 ∧ t.pending = none)) = true := by decide

/-- R90: after a reset, and a fault inside a handler. -/
theorem test_controller :
    State.reset.inController .inHandler = true ∧ State.reset.inController .normal = false ∧
      base.inController .normal = true ∧ faulted.inController .exceptionPending = true ∧
      faulted.inController .inHandler = false ∧
      { faulted with cp0 := { faulted.cp0 with status := 2 } }.inController .exceptionPending = true ∧
      { faulted with cp0 := { faulted.cp0 with status := 2 } }.inController .inHandler = true := by decide

/-- R581: a reset writes neither EPC nor ErrorEPC. -/
theorem test_reset_keeps_epc :
    let t := { base with cp0 := { base.cp0 with epc := 0x55, errorEpc := 0x66, count := 9 } }.hostReset
    t.cp0.epc = 0x55 ∧ t.cp0.errorEpc = 0x66 ∧ t.pc = 0xFFFFFFFFBFC00000 := by decide

end Sys2Proof.Tests
end

section
/-! PROOFS. The invariant of the machine and the mode: every operation on the state keeps the invariant,
so every step does; Status, and with it the mode, changes by ERET and a move to Status alone. -/

namespace Sys2Proof.Machine

/-! ### Reserved bits of words -/

/-- Two fields that are clear under their parts of a mask are clear under the whole. -/
theorem append_and_append_eq_zero {w v : Nat} {a c : BitVec w} {b d : BitVec v} (hi : a &&& c = 0)
    (lo : b &&& d = 0) : (a ++ b) &&& (c ++ d) = 0 := by
  rw [BitVec.and_append, hi, lo]
  exact BitVec.zero_append_zero

/-- Bits clear under a mask stay clear when more bits are cleared. -/
theorem and_and_eq_zero {w : Nat} {a m : BitVec w} (h : a &&& m = 0) (b : BitVec w) :
    (a &&& b) &&& m = 0 := by
  rw [BitVec.and_assoc, BitVec.and_comm b, ← BitVec.and_assoc, h]
  exact BitVec.zero_and

/-- Bits clear under a mask stay clear when bits outside the mask are set. -/
theorem or_and_eq_zero {w : Nat} {a b m : BitVec w} (h : a &&& m = 0) (hb : b &&& m = 0) :
    (a ||| b) &&& m = 0 := by
  rw [BitVec.and_comm, BitVec.and_or_distrib_left, BitVec.and_comm m, BitVec.and_comm m, h, hb]
  exact BitVec.or_zero

/-- A write leaves the bits outside its mask as they were (R74). -/
theorem maskedWrite_and {n : Nat} {mask m : BitVec n} (h : mask &&& m = 0) (old v : BitVec n) :
    maskedWrite old mask v &&& m = old &&& m := by
  apply BitVec.eq_of_getLsbD_eq
  intro k hk
  have hb := congrArg (BitVec.getLsbD · k) h
  simp only [BitVec.getLsbD_and] at hb
  simp only [maskedWrite, BitVec.getLsbD_and, BitVec.getLsbD_or, BitVec.getLsbD_not, hk]
  cases hm : mask.getLsbD k <;> simp_all

/-- Bits that a field outside the mask holds stay, whatever is written (R74). -/
theorem extractLsb'_maskedWrite {n : Nat} {mask : BitVec n} {start len : Nat}
    (h : mask.extractLsb' start len = 0) (old v : BitVec n) :
    (maskedWrite old mask v).extractLsb' start len = old.extractLsb' start len := by
  apply BitVec.eq_of_getLsbD_eq
  intro k hk
  have hb := congrArg (BitVec.getLsbD · k) h
  simp only [BitVec.getLsbD_extractLsb', hk, decide_true, Bool.true_and] at hb ⊢
  by_cases hn : start + k < n <;> simp_all [maskedWrite, BitVec.getLsbD_of_ge]

/-- EntryHi, put together from its fields, has its reserved bits zero (R58). -/
theorem entryHi_fields_and (r : BitVec 2) (vpn2 : BitVec 27) (asid : BitVec 8) :
    (r ++ 0#22 ++ vpn2 ++ 0#5 ++ asid) &&& 0x3FFFFF0000001F00 = 0 :=
  append_and_append_eq_zero (c := 0#2 ++ BitVec.allOnes 22 ++ 0#27 ++ BitVec.allOnes 5) (d := 0#8)
    (append_and_append_eq_zero (append_and_append_eq_zero
      (append_and_append_eq_zero BitVec.and_zero BitVec.zero_and) BitVec.and_zero) BitVec.zero_and)
    BitVec.and_zero

/-- Bits 3:0 of Context and XContext read zero (R54, R70). -/
theorem append_zero_and_ones (a : BitVec 60) : (a ++ 0#4) &&& 0xF = 0 :=
  append_and_append_eq_zero (c := 0#60) (d := 0xF#4) BitVec.and_zero BitVec.zero_and

theorem entryLoOf_and (pfn : BitVec 20) (c : BitVec 3) (d v g : Bool) :
    entryLoOf pfn c d v g &&& 0xFFFFFFFFFC000000 = 0 :=
  append_and_append_eq_zero (c := BitVec.allOnes 38 ++ 0#20 ++ 0#3 ++ 0#1 ++ 0#1) (d := 0#1)
    (append_and_append_eq_zero (append_and_append_eq_zero (append_and_append_eq_zero
      (append_and_append_eq_zero BitVec.zero_and BitVec.and_zero) BitVec.and_zero) BitVec.and_zero)
      BitVec.and_zero) BitVec.and_zero

theorem pageMaskOf_and (e : TlbEntry) : pageMaskOf e &&& 0xFE001FFF = 0 :=
  append_and_append_eq_zero (c := BitVec.allOnes 7 ++ 0#12) (d := BitVec.allOnes 13)
    (append_and_append_eq_zero BitVec.zero_and BitVec.and_zero) BitVec.zero_and

theorem causeAfter_and {old : BitVec 32} (h : old &&& 0x4FFFFC83 = 0) (bd : Bool) (ce : BitVec 2)
    (code : BitVec 5) : causeAfter old bd ce code &&& 0x4FFFFC83 = 0 := by
  have hip : old.extractLsb' 8 8 &&& 0xFC#8 = 0 := by
    have e := congrArg (BitVec.extractLsb' 8 8) h
    rwa [BitVec.extractLsb'_and] at e
  exact append_and_append_eq_zero
    (c := 0#1 ++ 1#1 ++ 0#2 ++ BitVec.allOnes 12 ++ 0xFC#8 ++ 1#1 ++ 0#5) (d := 3#2)
    (append_and_append_eq_zero (append_and_append_eq_zero (append_and_append_eq_zero
      (append_and_append_eq_zero (append_and_append_eq_zero (append_and_append_eq_zero
        BitVec.and_zero BitVec.zero_and) BitVec.and_zero) BitVec.zero_and) hip) BitVec.zero_and)
      BitVec.and_zero) BitVec.zero_and

theorem code_causeAfter (old : BitVec 32) (bd : Bool) (ce : BitVec 2) (code : BitVec 5) :
    (causeAfter old bd ce code).extractLsb' 2 5 = code := by
  rw [causeAfter, BitVec.extractLsb'_append_eq_of_le (by decide)]
  exact BitVec.extractLsb'_append_eq_right

/-- Every kind has a code that R542 lists. -/
theorem legalCode_excCode (kind : FaultKind) : legalCode (excCode kind) = true := by
  cases kind with
  | addressError i => cases i <;> rfl
  | tlbMiss i => cases i <;> rfl
  | tlbInvalid i => cases i <;> rfl
  | _ => rfl

/-! ### The system-control registers -/

section
variable {c : Cp0}

/-- A move to a system-control register keeps its reserved bits (R74, R75), and sets Random when it
writes Wired (R76). -/
theorem Cp0.Legal.write (h : c.Legal) (n : Reg) (v : Word) : (c.write n v).Legal := by
  unfold Cp0.write
  dsimp only
  split
  · exact { h with index := (maskedWrite_and (by decide) _ _).trans h.index }
  · exact { h with entryLo0 := (maskedWrite_and (by decide) _ _).trans h.entryLo0 }
  · exact { h with entryLo1 := (maskedWrite_and (by decide) _ _).trans h.entryLo1 }
  · exact { h with context := (maskedWrite_and (by decide) _ _).trans h.context }
  · exact { h with pageMask := (maskedWrite_and (by decide) _ _).trans h.pageMask }
  · exact { h with
      wired := (maskedWrite_and (by decide) _ _).trans h.wired
      random := (by decide : (31 : BitVec 32) &&& 0xFFFFFFC0 = 0)
      bound := fun hw => ⟨hw, BitVec.le_refl _⟩ }
  · exact { h with }
  · exact { h with entryHi := (maskedWrite_and (by decide) _ _).trans h.entryHi }
  · exact { h with }
  · exact { h with status := (maskedWrite_and (by decide) _ _).trans h.status }
  · exact { h with
      cause := (maskedWrite_and (by decide) _ _).trans h.cause
      code := (congrArg legalCode (extractLsb'_maskedWrite (by decide) _ _)).trans h.code }
  · exact { h with }
  · exact { h with
      config := (maskedWrite_and (by decide) _ _).trans h.config
      configEc := (extractLsb'_maskedWrite (by decide) _ _).trans h.configEc }
  · exact { h with }
  · exact { h with watchLo := (maskedWrite_and (by decide) _ _).trans h.watchLo }
  · exact { h with watchHi := (maskedWrite_and (by decide) _ _).trans h.watchHi }
  · exact { h with xContext := (maskedWrite_and (by decide) _ _).trans h.xContext }
  · exact { h with parityError := (maskedWrite_and (by decide) _ _).trans h.parityError }
  · exact { h with tagLo := (maskedWrite_and (by decide) _ _).trans h.tagLo }
  · exact { h with }
  · exact h

/-- TLBR (R375). -/
theorem Cp0.Legal.readTlb (h : c.Legal) (e : TlbEntry) : (c.readTlb e).Legal :=
  { h with
    pageMask := pageMaskOf_and e
    entryHi := entryHi_fields_and ..
    entryLo0 := entryLoOf_and ..
    entryLo1 := entryLoOf_and .. }

/-- What an exception records of a bad address (R552). -/
theorem Cp0.Legal.recordBadAddress (h : c.Legal) (kind : FaultKind) (bad : Option Word) :
    (c.recordBadAddress kind bad).Legal := by
  have mapped (va : Word) : (c.recordBadAddress .tlbModified (some va)).Legal :=
    { h with
      context := append_zero_and_ones _
      xContext := append_zero_and_ones _
      entryHi := entryHi_fields_and .. }
  unfold Cp0.recordBadAddress
  split
  · exact { h with }
  · exact mapped _
  · exact mapped _
  · exact mapped _
  · exact h

/-- Clearing bits of Status keeps its reserved bits zero. -/
theorem Cp0.Legal.clearStatus (h : c.Legal) (m : BitVec 32) :
    ({ c with status := c.status &&& m } : Cp0).Legal :=
  { h with status := and_and_eq_zero h.status m }

end

/-! ### The operations on the state -/

section
variable {s u : State}

theorem State.Inv.setGpr (h : s.Inv) (r : Reg) (v : Word) : (s.setGpr r v).Inv := by
  rw [setGpr_eq]
  exact { h with zero := (setGpr_zero s r v).trans h.zero }

theorem State.Inv.commitLoad (h : s.Inv) : s.commitLoad.Inv := by
  rw [commitLoad_eq]
  exact { h with
    zero := (commitLoad_zero s).trans h.zero
    ld := nofun
    alone := fun hp => ⟨(h.alone hp).1, rfl⟩ }

/-- A load delay with no fault in the latch (R504, 3c). -/
theorem State.Inv.delayLoad (h : s.Inv) (hp : s.pending = none) (r : Reg) (v : Word) :
    (s.delayLoad r v).Inv :=
  { h with
    ld := fun l hl => by
      unfold State.delayLoad at hl
      dsimp only at hl
      split at hl
      · cases hl
      · next hr => cases hl; exact hr
    alone := fun c => absurd hp c }

theorem State.Inv.store (h : s.Inv) (pa : PAddr) (n : Nat) (v : Word) : (s.store pa n v).Inv := by
  by_cases ho : s.owner pa = .ram
  · rw [store_ram ho]; exact { h with mem := wf_write s.mem pa n v h.mem }
  · rw [store_ignored ho]; exact h

theorem State.Inv.setLink (h : s.Inv) (pa : PAddr) : (s.setLink pa).Inv :=
  { h with cp0 := { h.cp0 with } }

theorem State.Inv.setHi (h : s.Inv) (v : Word) : (s.setHi v).Inv := { h with }

theorem State.Inv.setLo (h : s.Inv) (v : Word) : (s.setLo v).Inv := { h with }

theorem State.Inv.setLoHi (h : s.Inv) (r : Word × Word) : (s.setLoHi r).Inv := { h with }

theorem State.Inv.writeCp0 (h : s.Inv) (n : Reg) (v : Word) : (s.writeCp0 n v).Inv :=
  { h with cp0 := h.cp0.write n v }

theorem State.Inv.readTlb (h : s.Inv) (e : TlbEntry) :
    ({ s with cp0 := s.cp0.readTlb e } : State).Inv := { h with cp0 := h.cp0.readTlb e }

theorem tlbEntry_writeTlb (s : State) (i k : BitVec 5) :
    (s.writeTlb i).tlbEntry k = if k = i then s.cp0.tlbImage else s.tlbEntry k := by
  simp only [State.tlbEntry, State.writeTlb, Vector.getElem_set, BitVec.toNat_inj, eq_comm]

/-- `WriteTLB` stores a page number whose masked-out bits are zero (R376). -/
theorem tlbImage_masked (c : Cp0) : c.tlbImage.vpn2 &&& c.tlbImage.mask.setWidth 27 = 0 := by
  simp [Cp0.tlbImage, BitVec.and_assoc]

theorem State.Inv.writeTlb (h : s.Inv) (i : BitVec 5) : (s.writeTlb i).Inv :=
  { h with
    tlb := fun k => by
      rw [tlbEntry_writeTlb]
      split
      · exact tlbImage_masked s.cp0
      · exact h.tlb k }

/-- Bits 30:6 of Index read zero after a probe, found or not (R51, R378). -/
theorem setProbe_index_and (s : State) (found : Option Nat) (hf : ∀ i, found = some i → i < 32) :
    (s.setProbe found).cp0.index &&& 0x7FFFFFC0 = 0 := by
  cases found with
  | some i =>
    have small : ∀ i < 32, BitVec.ofNat 32 i &&& 0x7FFFFFC0 = 0 := by decide
    exact small i (hf i rfl)
  | none =>
    exact append_and_append_eq_zero (c := 0#1 ++ BitVec.allOnes 25) (d := 0#6) rfl BitVec.and_zero

theorem State.Inv.setProbe (h : s.Inv) (found : Option Nat) (hf : ∀ i, found = some i → i < 32) :
    (s.setProbe found).Inv :=
  { h with cp0 := { h.cp0 with index := setProbe_index_and s found hf } }

theorem State.Inv.setFcr31 (h : s.Inv) {f : BitVec 32} (hf : KeepsReserved s.fcr31 f) :
    (s.setFcr31 f).Inv := { h with fcr31 := hf h.fcr31 }

theorem State.Inv.writeF64 (h : s.Inv) (i : Reg) (v : Word) : (s.writeF64 i v).Inv := { h with }

theorem State.Inv.writeF32Move (h : s.Inv) (i : Reg) (v : BitVec 32) :
    (s.writeF32Move i v).Inv := by
  rw [writeF32Move_eq]; exact { h with }

theorem State.Inv.writeFp (h : s.Inv) (wide : Bool) (i : Reg) (v : Word) :
    (s.writeFp wide i v).Inv := by
  rw [writeFp_eq]; exact { h with }

/-! ### The end of an instruction -/

theorem State.Inv.advance (h : s.Inv) : s.advance.Inv := by
  rw [advance_eq]; exact { h with alone := fun hp => ⟨rfl, (h.alone hp).2⟩ }

theorem State.Inv.branchTo (h : s.Inv) (hp : s.pending = none) (target : Word) :
    (s.branchTo target).Inv := { h with alone := fun c => absurd hp c }

theorem State.Inv.nullifySlot (h : s.Inv) : s.nullifySlot.Inv :=
  { h with alone := fun hp => ⟨rfl, (h.alone hp).2⟩ }

theorem State.Inv.exceptionReturn (h : s.Inv) : s.exceptionReturn.Inv := by
  unfold State.exceptionReturn
  split
  · exact { h with cp0 := h.cp0.clearStatus _, alone := fun hp => ⟨rfl, (h.alone hp).2⟩ }
  · exact { h with cp0 := h.cp0.clearStatus _, alone := fun hp => ⟨rfl, (h.alone hp).2⟩ }

/-- A raised fault fills the latch and leaves nothing else pending (R512). -/
theorem State.Inv.raised (h : s.Inv) {kind : FaultKind} {ce : BitVec 2} {bad : Option Word}
    (hk : kind ≠ .interrupt) (hb : bad.isSome = kind.hasAddress)
    (hc : ce = 0 ∨ (ce = 1 ∧ kind = .coprocessorUnusable)) : (s.raised kind ce bad).Inv :=
  { h.commitLoad with
    pending := by rintro p ⟨⟩; exact ⟨hk, hb, hc⟩
    alone := fun _ => ⟨rfl, commitLoad_ld s⟩ }

/-! ### The phases of a step -/

/-- Taking an exception (R550): the codes are those of R542, the reserved bits stay. -/
theorem State.Inv.exceptionEntry (h : s.Inv) (p : PendingFault) : (s.exceptionEntry p).Inv := by
  have hc := h.cp0.recordBadAddress p.kind p.badvaddr
  exact { h with
    cp0 := { hc with
      cause := causeAfter_and hc.cause ..
      code := (congrArg legalCode (code_causeAfter ..)).trans (legalCode_excCode p.kind)
      status := or_and_eq_zero hc.status rfl }
    alone := fun hp => ⟨rfl, (h.alone hp).2⟩ }

theorem State.Inv.dispatch (h : s.Inv) : s.dispatch.Inv := by
  unfold State.dispatch
  split
  · next p _ => exact { h.exceptionEntry p with pending := nofun, alone := fun c => absurd rfl c }
  · split
    · exact h.exceptionEntry _
    · exact h

/-- The advise phase draws Random within its bound (R52, R515). -/
theorem advise_legal (h : s.cp0.Legal) : s.advise.cp0.Legal := by
  set r := nextRandomIndex s.rng (s.cp0.wired.extractLsb' 0 6) (s.cp0.random.extractLsb' 0 6)
  have small : ∀ r : BitVec 6, r.setWidth 32 &&& 0xFFFFFFC0 = 0 := by decide
  refine { h with random := small r, bound := fun hw => ?_ }
  have hw31 : s.cp0.wired.toNat ≤ 31 := hw
  have wired : (s.cp0.wired.extractLsb' 0 6).toNat = s.cp0.wired.toNat := by
    rw [BitVec.extractLsb'_toNat]; omega
  have random : (r.setWidth 32).toNat = r.toNat := BitVec.toNat_setWidth_of_le (by decide)
  obtain ⟨lower, upper⟩ := nextRandomIndex_bound s.rng (s.cp0.wired.extractLsb' 0 6)
    (s.cp0.random.extractLsb' 0 6) (BitVec.le_def.2 (wired ▸ hw31))
  rw [BitVec.le_def, wired] at lower
  exact ⟨BitVec.le_def.2 (random ▸ lower), BitVec.le_def.2 (random ▸ upper)⟩

theorem State.Inv.advise (h : s.Inv) : s.advise.Inv := { h with cp0 := advise_legal h.cp0 }

/-- An instruction's own writes keep the invariant, footprint by footprint. -/
theorem State.Inv.body {e : Effect} (h : s.Inv) (hp : s.pending = none) (b : Body s e u) : u.Inv := by
  have hc := h.commitLoad
  cases b with
  | nothing => exact hc
  | gpr rd v => exact hc.setGpr rd v
  | load rt v => exact hc.delayLoad (by simp [hp]) rt v
  | loadLinked rt pa v => exact (hc.setLink pa).delayLoad (by simp [State.setLink, hp]) rt v
  | store pa n v => exact hc.store pa n v
  | stored rt pa n v w => exact (hc.store pa n v).setGpr rt w
  | notStored rt w => exact hc.setGpr rt w
  | hi v => exact hc.setHi v
  | lo v => exact hc.setLo v
  | hiLo r => exact hc.setLoHi r
  | branch => exact hc
  | branchLink rd => exact hc.setGpr rd _
  | cp0 n v => exact hc.writeCp0 n v
  | tlbRead e => exact hc.readTlb e
  | tlbWrite i => exact hc.writeTlb i
  | tlbProbe found hf => exact hc.setProbe found hf
  | fpr64 fd v => exact hc.writeF64 fd v
  | fpr32 fd v => exact hc.writeF32Move fd v
  | fcr31 f hf => exact hc.setFcr31 (by rwa [commitLoad_fcr31])
  | fcr31Kept => exact hc
  | fprFcr31 wide fd v f hf => exact (hc.setFcr31 (by rwa [commitLoad_fcr31])).writeFp wide fd v

/-- Every way to a next state keeps the invariant, when the latch was empty. -/
theorem State.Inv.ran {e : Effect} {t : State} (h : s.Inv) (hp : s.pending = none)
    (r : Ran e s t) : t.Inv := by
  cases r with
  | done u b _ _ eq => exact eq ▸ (h.body hp b).advance
  | took u target b _ eq =>
    exact eq ▸ (h.body hp b).branchTo ((body_pipeline b).2.2.trans hp) target
  | nullified u b _ eq => exact eq ▸ (h.body hp b).nullifySlot
  | returned _ eq => exact eq ▸ h.commitLoad.exceptionReturn
  | raised kind ce bad hk hb hc eq => exact eq ▸ h.raised hk hb hc
  | raisedFp f _ hf eq => exact eq ▸ (h.setFcr31 hf).raised (by decide) rfl (.inl rfl)
end

/-- Settles O16: dispatch empties the latch and keeps the invariant, then every way an instruction can
end keeps it, and so does the advise phase. -/
theorem stepInvariant : Obligations.StepInvariant := by
  intro s t h hst
  have hd := h.dispatch
  obtain ⟨u, rfl, ⟨w, i, _, _, hx⟩ | ⟨w, e, _, _, rfl⟩ | ⟨kind, hf, rfl⟩⟩ := step_cases hst
  · exact (hd.ran (dispatch_pending s) ((exec_runs i _).ran u hx)).advise
  · exact (hd.raised (by decide) rfl (.inl rfl)).advise
  · have hk := fetchWord_raises hf
    exact (hd.raised (bad := some _) (by rintro rfl; cases hk) hk.symm (.inl rfl)).advise

/-- The fields of Config at reset, whatever EC is (R67, R91). -/
theorem reset_config_fields (ec : BitVec 3) :
    (0#1 ++ ec ++ 0x006E460#28) &&& 0x80FF7FF0 = 0x00066460 ∧
      (0#1 ++ ec ++ 0x006E460#28).extractLsb' 28 3 = ec := by
  revert ec; decide

/-- Settles O15: each field of the reset state, the free Config.EC being carried unread. -/
theorem resetInvariant : Obligations.ResetInvariant where
  mem := rfl
  zero := rfl
  fcr31 := by decide
  cp0 := by
    constructor
    case config => exact (reset_config_fields _).1
    case configEc => exact (reset_config_fields _).2
    all_goals decide
  tlb := by decide
  ld := nofun
  pending := nofun
  alone := fun h => absurd rfl h

/-! ### Status and the mode -/

section
variable {s u : State}

/-- Only a write to register 12 touches Status (R75). -/
theorem write_status {n : Reg} (hn : n ≠ 12) (c : Cp0) (v : Word) :
    (c.write n v).status = c.status := by
  unfold Cp0.write
  dsimp only
  split
  case h_10 => exact absurd rfl hn
  all_goals rfl

theorem raised_status (s : State) (kind : FaultKind) (ce : BitVec 2) (bad : Option Word) :
    (s.raised kind ce bad).cp0.status = s.cp0.status := by simp [State.raised]

/-- An instruction's own writes leave Status alone, but for a move to it. -/
theorem body_status {e : Effect} (b : Body s e u) (he : e ≠ .cp0 12) :
    u.cp0.status = s.cp0.status := by
  cases b
  case cp0 n v =>
    refine (write_status (fun hn => he (congrArg Effect.cp0 hn)) _ v).trans ?_
    rw [commitLoad_cp0]
  case fpr32 => rw [writeF32Move_eq]; simp
  case fprFcr31 => rw [writeFp_eq]; simp [State.setFcr31]
  all_goals
    simp [State.delayLoad, State.setLink, State.store, State.setHi, State.setLo, State.setLoHi,
      Cp0.readTlb, State.writeTlb, State.setProbe, State.writeF64, State.setFpr, State.setFcr31]

/-- Status changes in an instruction by ERET and a move to it alone (R62). -/
theorem ran_status {e : Effect} {t : State} (r : Ran e s t) (hr : e ≠ .exceptionReturn)
    (he : e ≠ .cp0 12) : t.cp0.status = s.cp0.status := by
  cases r with
  | done u b _ _ eq =>
    rw [advance_eq] at eq
    exact (congrArg (·.cp0.status) eq).trans (body_status b he)
  | took u target b _ eq => exact (congrArg (·.cp0.status) eq).trans (body_status b he)
  | nullified u b _ eq => exact (congrArg (·.cp0.status) eq).trans (body_status b he)
  | returned hr' => exact absurd hr' hr
  | raised kind ce bad _ _ _ eq => rw [eq]; exact raised_status ..
  | raisedFp f _ _ eq => rw [eq]; exact raised_status (s.setFcr31 f) ..

end

theorem effect_exceptionReturn {i : Instr} (h : i.effect = .exceptionReturn) : i = .eret := by
  cases i
  case eret => rfl
  all_goals cases h

theorem effect_cp0 {i : Instr} {n : Reg} (h : i.effect = .cp0 n) :
    (∃ rt, i = .mtc0 rt n) ∨ (∃ rt, i = .dmtc0 rt n) := by
  cases i
  case mtc0 rt rd => cases h; exact .inl ⟨rt, rfl⟩
  case dmtc0 rt rd => cases h; exact .inr ⟨rt, rfl⟩
  all_goals cases h

/-- Settles O21: Status changes with the footprints of ERET and of a move to register 12 alone, and the
mode is a function of Status. -/
theorem modeChanges : Obligations.ModeChanges := by
  intro i s t ht
  have r := (exec_runs i s).ran t ht
  have keep : i ≠ .eret → (∀ rt, i ≠ .mtc0 rt 12 ∧ i ≠ .dmtc0 rt 12) →
      t.cp0.status = s.cp0.status := fun hr hm =>
    ran_status r (fun he => hr (effect_exceptionReturn he)) fun he =>
      (effect_cp0 he).elim (fun ⟨rt, h⟩ => (hm rt).1 h) fun ⟨rt, h⟩ => (hm rt).2 h
  refine ⟨fun hmode => ?_, keep⟩
  by_contra hno
  simp only [not_or, not_exists] at hno
  obtain ⟨hr, hm, hd⟩ := hno
  exact hmode (mode_congr (keep hr fun rt => ⟨hm rt, hd rt⟩))

end Sys2Proof.Machine
end


section
/-! PROOFS. Memory: a step is never refused, and stops only where an address has two TLB entries; what a
virtual address translates to in every mode. -/

namespace Sys2Proof.Machine

/-! ### What an instruction answers -/

/-- The outcomes of an instruction phase in `s`: a next state, or the stop of R124, and that only when
some address has two matches. -/
inductive Answers (s : State) : Out → Prop
  | next (t : State) : Answers s (.next t)
  | stop (h : ¬ s.TlbUnambiguous) : Answers s (.fault .tlbMultipleMatch)

section
variable {s : State} {k : Out}

theorem answers_ite {c : Prop} [Decidable c] {a b : Out} (ha : Answers s a) (hb : Answers s b) :
    Answers s (if c then a else b) := by split <;> assumption

theorem answers_withOps64 (h : Answers s k) : Answers s (withOps64 s k) := answers_ite h (.next _)

theorem answers_withCop0 (h : Answers s k) : Answers s (withCop0 s k) := answers_ite h (.next _)

theorem answers_withCop1 (h : Answers s k) : Answers s (withCop1 s k) := answers_ite h (.next _)

/-- A translation stops only on a double match (R124). -/
theorem answers_withTranslation {intent : Intent} {va : Word} {f : PAddr → Out}
    (h : ∀ pa, Answers s (f pa)) : Answers s (withTranslation intent va s f) := by
  unfold withTranslation
  split
  · exact h _
  · exact .next _
  · next ht => exact .stop fun hu => translate_ne_multipleMatch hu va intent ht

theorem answers_withAligned {intent : Intent} {n : Nat} {va : Word} {f : PAddr → Out}
    (h : ∀ pa, Answers s (f pa)) : Answers s (withAligned intent n va s f) :=
  answers_ite (answers_withTranslation h) (.next _)

/-- A load or store whose access, once translated, answers a next state. -/
theorem answers_access {intent : Intent} {n : Nat} {va : Word} {f : PAddr → State} :
    Answers s (withAligned intent n va s fun pa => .next (f pa)) :=
  answers_withAligned fun _ => .next _

theorem answers_partialAccess {intent : Intent} {va : Word} {f : PAddr → State} :
    Answers s (withTranslation intent va s fun pa => .next (f pa)) :=
  answers_withTranslation fun _ => .next _

theorem answers_condBranchLikely (c : Bool) (f : State → State) (imm : BitVec 16) :
    Answers s (condBranchLikely c f imm s) := answers_ite (.next _) (.next _)

theorem answers_trapIf (c : Bool) : Answers s (trapIf c s) := answers_ite (.next _) (.next _)

theorem answers_fpFinish (wide : Bool) (fd : Reg) (r : FpResult) : Answers s (fpFinish wide fd r s) := by
  cases r with
  | unimplemented => exact .next _
  | value v x => exact answers_ite (.next _) (.next _)

/-- An arithmetic or conversion instruction (R432). -/
theorem answers_fpArith (wide : Bool) (fd : Reg) (r : FpResult) :
    Answers s (withCop1 s (fpFinish wide fd r s)) := answers_withCop1 (answers_fpFinish ..)

theorem answers_fpCmp (f : FpFormat) (cond : BitVec 4) (fs ft : Reg) :
    Answers s (fpCmp f cond fs ft s) := answers_withCop1 (answers_ite (.next _) (.next _))

/-- A probe stops only on a double match (R378). -/
theorem answers_tlbp : Answers s (execTlbp s) := by
  refine answers_withCop0 ?_
  split
  · exact .next _
  · exact .next _
  · next none one =>
    refine .stop fun hu => ?_
    have length := hu s.cp0.entryHi
    match hits : s.tlbHits s.cp0.entryHi with
    | [] => exact none hits
    | [e] => exact one e hits
    | _ :: _ :: _ => simp [hits] at length

end

/-- Every instruction answers a next state, or stops on a double match: a load, a store and TLBP by their
translation, every other one never. -/
theorem exec_answers (i : Instr) (s : State) : Answers s (exec i s) := by
  cases i with
  | addi | add | sub => exact answers_ite (.next _) (.next _)
  | daddi | dadd | dsub => exact answers_withOps64 (answers_ite (.next _) (.next _))
  | daddiu | daddu | dsubu | dsll | dsrl | dsra | dsll32 | dsrl32 | dsra32 | dsllv | dsrlv | dsrav
  | dmult | dmultu | ddiv | ddivu => exact answers_withOps64 (.next _)
  | beql | bnel | blezl | bgtzl | bltzl | bgezl | bltzall | bgezall =>
    exact answers_condBranchLikely ..
  | tge | tgeu | tlt | tltu | teq | tne | tgei | tgeiu | tlti | tltiu | teqi | tnei =>
    exact answers_trapIf _
  | lb | lbu | lh | lhu | lw | sb | sh | sw | ll | sc => exact answers_access
  | lwu | ld | sd | lld | scd => exact answers_withOps64 answers_access
  | lwl | lwr | swl | swr => exact answers_partialAccess
  | ldl | ldr | sdl | sdr => exact answers_withOps64 answers_partialAccess
  | cache | mfc0 | mtc0 | tlbr | tlbwi | tlbwr | eret => exact answers_withCop0 (.next _)
  | dmfc0 | dmtc0 => exact answers_withCop0 (answers_withOps64 (.next _))
  | tlbp => exact answers_tlbp
  | lwc1 | ldc1 | swc1 | sdc1 => exact answers_withCop1 answers_access
  | mfc1 | cfc1 | mtc1 | bc1f | bc1t | movS | movD => exact answers_withCop1 (.next _)
  | dmfc1 | dmtc1 => exact answers_withCop1 (answers_withOps64 (.next _))
  | ctc1 => exact answers_withCop1 (answers_ite (answers_ite (.next _) (.next _)) (.next _))
  | bc1fl | bc1tl => exact answers_withCop1 (answers_condBranchLikely ..)
  | addS | addD | subS | subD | mulS | mulD | divS | divD | sqrtS | sqrtD | absS | absD | negS | negD
  | roundLS | roundLD | truncLS | truncLD | ceilLS | ceilLD | floorLS | floorLD
  | roundWS | roundWD | truncWS | truncWD | ceilWS | ceilWD | floorWS | floorWD
  | cvtSD | cvtSW | cvtSL | cvtDS | cvtDW | cvtDL | cvtWS | cvtWD | cvtLS | cvtLD =>
    exact answers_fpArith ..
  | cFS | cFD | cUnS | cUnD | cEqS | cEqD | cUeqS | cUeqD | cOltS | cOltD | cUltS | cUltD
  | cOleS | cOleD | cUleS | cUleD | cSfS | cSfD | cNgleS | cNgleD | cSeqS | cSeqD | cNglS | cNglD
  | cLtS | cLtD | cNgeS | cNgeD | cLeS | cLeD | cNgtS | cNgtD => exact answers_fpCmp ..
  | _ => exact .next _

/-- With no address matched twice, a fetch never finds two entries (R124, R502). -/
theorem fetchWord_ne_multipleMatch {s : State} (h : s.TlbUnambiguous) : s.fetchWord ≠ .multipleMatch := by
  intro hf
  unfold State.fetchWord at hf
  split at hf
  · split at hf <;> cases hf
    next ht => exact translate_ne_multipleMatch h _ _ ht
  · cases hf

/-- The instruction phase after a fetch from the same state (R502, R503). -/
theorem runFetched_answers (s : State) : Answers s (runFetched s.fetchWord s) := by
  unfold runFetched
  split
  · split
    · exact exec_answers _ s
    · exact .next _
  · exact .next _
  · next hf => exact .stop fun hu => fetchWord_ne_multipleMatch hu hf

/-- The advise phase carries the outcome of the instruction phase on (R514). -/
theorem answers_adviseOut {s : State} {o : Out} (h : Answers s o) : Answers s (adviseOut o) := by
  cases h with
  | next t => exact .next _
  | stop hu => exact .stop hu

theorem step_answers (s : State) : Answers s.dispatch (step s) :=
  answers_adviseOut (runFetched_answers s.dispatch)

/-- Settles O17: a step answers a next state or the stop, and the stop needs an address matched twice. -/
theorem noStop : Obligations.NoStop := by
  intro s
  have h := step_answers s
  generalize step s = o at h
  cases h with
  | next t => exact ⟨nofun, fun _ => ⟨t, rfl⟩⟩
  | stop hu => exact ⟨nofun, fun safe => absurd safe hu⟩

/-! ### The range and the windows of an address (R101, R103) -/

/-- A sign-extended 32-bit address by its signed value (R101). -/
theorem inRange_iff (va : Word) : inRange va = true ↔ -2 ^ 31 ≤ va.toInt ∧ va.toInt < 2 ^ 31 := by
  have upper : (va.extractLsb' 31 33).toNat = va.toNat / 2 ^ 31 := by
    rw [BitVec.extractLsb'_toNat, Nat.shiftRight_eq_div_pow]; omega
  have ones : (BitVec.allOnes 33).toNat = 2 ^ 33 - 1 := BitVec.toNat_allOnes
  have zero : (0 : BitVec 33).toNat = 0 := rfl
  simp only [inRange, Bool.or_eq_true, decide_eq_true_eq, ← BitVec.toNat_inj, upper, ones, zero,
    BitVec.toInt_eq_toNat_cond]
  split <;> omega

theorem segKind_cached_iff (m : Mode) (w : BitVec 3) :
    segKind m w = .cached ↔ m = .kernel ∧ w.toNat = 4 := by
  cases m <;> revert w <;> decide

theorem segKind_uncached_iff (m : Mode) (w : BitVec 3) :
    segKind m w = .uncached ↔ m = .kernel ∧ w.toNat = 5 := by
  cases m <;> revert w <;> decide

theorem segKind_mapped_iff (m : Mode) (w : BitVec 3) : segKind m w = .mapped ↔
    w.toNat ≤ 3 ∨ (w.toNat = 6 ∧ (m = .kernel ∨ m = .supervisor)) ∨ (w.toNat = 7 ∧ m = .kernel) := by
  cases m <;> revert w <;> decide

theorem segKind_invalid_iff (m : Mode) (w : BitVec 3) : segKind m w = .invalid ↔
    m ≠ .kernel ∧ (w.toNat = 4 ∨ w.toNat = 5 ∨ w.toNat = 7 ∨ (w.toNat = 6 ∧ m ≠ .supervisor)) := by
  cases m <;> revert w <;> decide

/-- Supervisor mode by the bits of Status (R80). -/
theorem mode_supervisor_iff (s : State) : s.mode = .supervisor ↔
    ¬ (s.cp0.status.getLsbD 1 = true ∨ s.cp0.status.getLsbD 2 = true ∨
      s.cp0.status.extractLsb' 3 2 = 0) ∧ s.cp0.status.extractLsb' 3 2 = 1 := by
  rw [mode_eq]
  split_ifs with kernel supervisor
  · exact iff_of_false nofun fun h => h.1 kernel
  · exact iff_of_true rfl ⟨kernel, supervisor⟩
  · exact iff_of_false nofun fun h => supervisor h.2
  · exact iff_of_false nofun fun h => supervisor h.2

/-! ### The entries that match an address (R120, R121) -/

/-- The page numbers agree under the mask when they agree at each bit the mask leaves (R121). -/
theorem and_vpnMask_eq_iff (e : TlbEntry) (v : BitVec 27) :
    e.vpn2 &&& e.vpnMask = v &&& e.vpnMask ↔
      ∀ k < 27, e.mask.getLsbD k = false → e.vpn2.getLsbD k = v.getLsbD k := by
  constructor
  · intro eq k hk left
    have := congrArg (·.getLsbD k) eq
    simpa [TlbEntry.vpnMask, hk, left] using this
  · intro bits
    refine BitVec.eq_of_getLsbD_eq fun k hk => ?_
    cases masked : e.mask.getLsbD k
    · simp [bits k hk masked]
    · simp [TlbEntry.vpnMask, masked]

theorem matchesVa_iff (e : TlbEntry) (asid : BitVec 8) (va : Word) :
    e.matchesVa asid va = true ↔ e.Covers asid va := by
  have page : (∀ k < 27, e.mask.getLsbD k = false → e.vpn2.getLsbD k = (va.extractLsb' 13 27).getLsbD k) ↔
      ∀ k < 27, e.mask.getLsbD k = false → e.vpn2.getLsbD k = va.getLsbD (13 + k) :=
    forall₂_congr fun k hk => by rw [BitVec.getLsbD_extractLsb', decide_eq_true hk, Bool.true_and]
  simp only [TlbEntry.matchesVa, Bool.and_eq_true, decide_eq_true_eq, and_vpnMask_eq_iff, page,
    Bool.or_eq_true]
  exact ⟨fun ⟨⟨region, page⟩, space⟩ => ⟨region, page, space⟩,
    fun h => ⟨⟨h.region, h.page⟩, h.space⟩⟩

/-- The hits are the entries that cover the address, each with its number. -/
theorem mem_tlbHits_iff {s : State} {va : Word} {x : TlbEntry × Nat} : x ∈ s.tlbHits va ↔
    ∃ i : BitVec 5, (s.tlbEntry i).Covers s.asid va ∧ x = (s.tlbEntry i, i.toNat) := by
  rw [State.tlbHits, List.mem_filter, matchesVa_iff, List.mem_zipIdx_iff_getElem?]
  constructor
  · rintro ⟨listed, covers⟩
    obtain ⟨e, n⟩ := x
    obtain ⟨hn, he⟩ := List.getElem?_eq_some_iff.1 listed
    have slot : n < 2 ^ 5 := by simpa using hn
    have entry : s.tlbEntry (BitVec.ofNatLT n slot) = e := he
    exact ⟨BitVec.ofNatLT n slot, entry.symm ▸ covers, by rw [entry]; rfl⟩
  · rintro ⟨i, covers, rfl⟩
    exact ⟨List.getElem?_eq_some_iff.2 ⟨by simpa using i.isLt, rfl⟩, covers⟩

theorem tlbHits_nodup (s : State) (va : Word) : (s.tlbHits va).Nodup := by
  refine List.Nodup.filter _ (List.Nodup.of_map Prod.snd ?_)
  rw [List.zipIdx_map_snd]
  exact List.nodup_range'

theorem tlbHits_eq_nil {s : State} {va : Word} (h : ∀ i, ¬ (s.tlbEntry i).Covers s.asid va) :
    s.tlbHits va = [] :=
  List.eq_nil_iff_forall_not_mem.2 fun _ hx =>
    let ⟨i, hi, _⟩ := mem_tlbHits_iff.1 hx
    h i hi

theorem tlbHits_eq_singleton {s : State} {va : Word} {i : BitVec 5}
    (hi : (s.tlbEntry i).Covers s.asid va)
    (only : ∀ j, (s.tlbEntry j).Covers s.asid va → j = i) :
    s.tlbHits va = [(s.tlbEntry i, i.toNat)] := by
  refine List.perm_singleton.1 ((List.perm_ext_iff_of_nodup (tlbHits_nodup s va)
    (List.nodup_singleton _)).2 fun x => ?_)
  rw [mem_tlbHits_iff, List.mem_singleton]
  constructor
  · rintro ⟨j, hj, rfl⟩
    rw [only j hj]
  · exact fun hx => ⟨i, hi, hx⟩

theorem two_le_length_tlbHits {s : State} {va : Word} {i j : BitVec 5}
    (hi : (s.tlbEntry i).Covers s.asid va) (hj : (s.tlbEntry j).Covers s.asid va) (ne : i ≠ j) :
    2 ≤ (s.tlbHits va).length := by
  have pair : [(s.tlbEntry i, i.toNat), (s.tlbEntry j, j.toNat)].Nodup := by
    simp [BitVec.toNat_inj, ne]
  refine (pair.subperm fun x hx => ?_).length_le
  rw [mem_tlbHits_iff]
  simp only [List.mem_cons, List.not_mem_nil, or_false] at hx
  exact hx.elim (fun h => ⟨i, hi, h⟩) fun h => ⟨j, hj, h⟩

/-! ### One entry's access (R122, R123) -/

/-- The offset bits of a page: the low 12 and those its mask sets (R122). -/
theorem pageOffset_getLsbD (e : TlbEntry) {k : Nat} (hk : k < 32) :
    e.pageOffset.getLsbD k = decide (k < 12 ∨ e.mask.getLsbD (k - 12) = true) := by
  have low : (0xFFF : PAddr).getLsbD k = decide (k < 12) := by revert k; decide
  rw [TlbEntry.pageOffset, BitVec.getLsbD_or, low, BitVec.getLsbD_shiftLeft, BitVec.getLsbD_setWidth]
  by_cases h : k < 12
  · simp [h]
  · simp [h, hk, show k - 12 < 32 by omega]

/-- The physical address bit by bit: the offset from the address, the rest from the frame (R122). -/
theorem physAddr_getLsbD (e : TlbEntry) (pfn : BitVec 20) (va : Word) {k : Nat} (hk : k < 32) :
    (e.physAddr pfn va).getLsbD k =
      if k < 12 ∨ e.mask.getLsbD (k - 12) then va.getLsbD k else pfn.getLsbD (k - 12) := by
  rw [TlbEntry.physAddr, BitVec.getLsbD_or, BitVec.getLsbD_and, BitVec.getLsbD_and, BitVec.getLsbD_not,
    BitVec.getLsbD_append, BitVec.getLsbD_extractLsb', pageOffset_getLsbD e hk]
  by_cases inside : k < 12 ∨ e.mask.getLsbD (k - 12) = true
  · rw [if_pos inside]
    simp [inside, hk]
  · obtain ⟨high, framed⟩ := not_or.1 inside
    rw [if_neg inside]
    simp [high, framed, hk]

/-- The access of the half that was chosen: V before D, then the address (R120, R123). -/
theorem access_half {e : TlbEntry} {va : Word} {pfn : BitVec 20} {c : BitVec 3} {d v : Bool}
    (intent : Intent)
    (half : (if e.oddPage va then (e.pfn1, e.c1, e.d1, e.v1) else (e.pfn0, e.c0, e.d0, e.v0)) =
      (pfn, c, d, v)) :
    (v = false → e.access intent va = .raises (.tlbInvalid intent)) ∧
    (v = true → d = false → intent = .store → e.access intent va = .raises .tlbModified) ∧
    (v = true → (d = true ∨ intent ≠ .store) →
      ∃ pa, e.access intent va = .physical pa (if c = 2 then .uncached else .cached) ∧
        ∀ k < 32, pa.getLsbD k =
          if k < 12 ∨ e.mask.getLsbD (k - 12) then va.getLsbD k else pfn.getLsbD (k - 12)) := by
  unfold TlbEntry.access
  rw [half]
  refine ⟨?_, ?_, ?_⟩
  · rintro rfl; rfl
  · rintro rfl rfl rfl; rfl
  · rintro rfl allowed
    refine ⟨e.physAddr pfn va, ?_, fun k hk => physAddr_getLsbD e pfn va hk⟩
    obtain rfl | load := allowed
    · simp [cacheAttrOf]
    · simp [load, cacheAttrOf]

/-! ### Translation (R120) -/

section
variable {s : State} {va : Word} {intent : Intent}

theorem translate_outOfRange (h : ¬ inRange va = true) :
    s.translate va intent = .raises (.addressError intent) := by
  simp [State.translate, h]

theorem translate_invalid (h : segKind s.mode (va.extractLsb' 29 3) = .invalid) :
    s.translate va intent = .raises (.addressError intent) := by
  simp [State.translate, h]

theorem translate_cached (hr : inRange va = true) (h : segKind s.mode (va.extractLsb' 29 3) = .cached) :
    s.translate va intent = .physical (directAddr va) .cached := by
  simp [State.translate, hr, h]

theorem translate_uncached (hr : inRange va = true) (h : segKind s.mode (va.extractLsb' 29 3) = .uncached) :
    s.translate va intent = .physical (directAddr va) .uncached := by
  simp [State.translate, hr, h]

variable (hr : inRange va = true) (hm : segKind s.mode (va.extractLsb' 29 3) = .mapped)
include hr hm

theorem translate_unmatched (h : s.tlbHits va = []) :
    s.translate va intent = .raises (.tlbMiss intent) := by
  simp [State.translate, hr, hm, h]

theorem translate_matched {e : TlbEntry} {n : Nat} (h : s.tlbHits va = [(e, n)]) :
    s.translate va intent = e.access intent va := by
  simp [State.translate, hr, hm, h]

theorem translate_matchedTwice (h : 2 ≤ (s.tlbHits va).length) :
    s.translate va intent = .multipleMatch := by
  match hits : s.tlbHits va with
  | [] | [_] => simp [hits] at h
  | _ :: _ :: _ => simp [State.translate, hr, hm, hits]

end

/-- Settles O51: the kinds of a window decide the unmapped cases; in a mapped window the number of hits
decides between the miss, the one entry's access and the stop. -/
theorem translation : Obligations.Translation := by
  intro s va intent
  extract_lets range w kernel supervisor mapped covers r
  have hrange : inRange va = true ↔ range := inRange_iff va
  have hkernel : s.mode = .kernel ↔ kernel := mode_kernel_iff s
  have hsupervisor : s.mode = .supervisor ↔ supervisor := mode_supervisor_iff s
  have hmapped : mapped → inRange va = true ∧ segKind s.mode (va.extractLsb' 29 3) = .mapped := by
    rw [segKind_mapped_iff, hrange, hkernel, hsupervisor]
    exact id
  refine ⟨fun h => translate_outOfRange (mt hrange.1 h), fun _ hk hw => translate_invalid ?_,
    fun hr hk hw => translate_cached (hrange.2 hr) ((segKind_cached_iff ..).2 ⟨hkernel.2 hk, hw⟩),
    fun hr hk hw => translate_uncached (hrange.2 hr) ((segKind_uncached_iff ..).2 ⟨hkernel.2 hk, hw⟩),
    fun hm none => ?_, fun hm i j hi hj ne => ?_, fun hm i hi only => ?_⟩
  · rw [segKind_invalid_iff, Ne, Ne, hkernel, hsupervisor]
    exact ⟨hk, hw⟩
  · obtain ⟨hr, hm⟩ := hmapped hm
    exact translate_unmatched hr hm (tlbHits_eq_nil none)
  · obtain ⟨hr, hm⟩ := hmapped hm
    exact translate_matchedTwice hr hm (two_le_length_tlbHits hi hj ne)
  · obtain ⟨hr, hm⟩ := hmapped hm
    have one : r = (s.tlbEntry i).access intent va :=
      translate_matched hr hm (tlbHits_eq_singleton hi only)
    clear_value r
    subst one
    exact ⟨fun odd => access_half intent (if_pos (decide_eq_true odd)),
      fun even => access_half intent (if_neg (mt of_decide_eq_true even))⟩

end Sys2Proof.Machine
end

section
/-! PROOFS. Encoding: the decoder reads back every encoded instruction, what each map reads is well formed,
the words each map rejects, and what a rejected word and a disabled 64-bit operation raise. -/

namespace Sys2Proof

/-! ### Numbers in their fields (R163, R165, R167, R170, R175) -/

/-- A number that fits its field is read back from it. -/
theorem toNat_ofNat_of_fits {n k : Nat} (h : decide (k < 2 ^ n) = true) : (BitVec.ofNat n k).toNat = k :=
  (BitVec.toNat_ofNat k n).trans (Nat.mod_eq_of_lt (of_decide_eq_true h))

@[simp] theorem shiftAmount_toNat (f : BitVec 5) : WellFormed.shiftAmount f.toNat = true :=
  decide_eq_true f.isLt

@[simp] theorem callCode_toNat (f : BitVec 20) : WellFormed.callCode f.toNat = true :=
  decide_eq_true f.isLt

@[simp] theorem trapCode_toNat (f : BitVec 10) : WellFormed.trapCode f.toNat = true :=
  decide_eq_true f.isLt

@[simp] theorem cacheOp_toNat (f : BitVec 5) : WellFormed.cacheOp f.toNat = true :=
  decide_eq_true f.isLt

@[simp] theorem cofunField_toNat (f : BitVec 26) : WellFormed.cofunField f.toNat = true :=
  decide_eq_true f.isLt

/-! ### Decoding an encoded instruction -/

/-- Format by format: the fields of the word select the map and its row, and the row reads the operands
from the fields they were written to. -/
theorem decodeWord_encode {i : Instr} (h : i.wf = true) : decodeWord (encode i) = .ok i := by
  cases i with
  | addi | addiu | slti | sltiu | andi | ori | xori | daddi | daddiu | lui | beq | bne | blez | bgtz
  | beql | bnel | blezl | bgtzl | lb | lbu | lh | lhu | lw | lwu | ld | lwl | lwr | ldl | ldr
  | sb | sh | sw | sd | swl | swr | sdl | sdr | ll | lld | sc | scd | lwc1 | ldc1 | swc1 | sdc1 =>
    change decodeWord (iWord _ _ _ _) = _
    rw [decodeWord, opcodeField_iWord]
    exact congrArg Except.ok (by simp)
  | cache =>
    change decodeWord (iWord _ _ _ _) = _
    rw [decodeWord, opcodeField_iWord]
    exact congrArg Except.ok (by
      simp only [rtField_iWord, rsField_iWord, immField_iWord, toNat_ofNat_of_fits (n := 5) h])
  | j | jal =>
    change decodeWord (jWord _ _) = _
    rw [decodeWord, opcodeField_jWord]
    exact congrArg Except.ok (by simp)
  | cop2 =>
    change decodeWord (jWord _ _) = _
    rw [decodeWord, opcodeField_jWord]
    exact congrArg Except.ok (by simp only [targetField_jWord, toNat_ofNat_of_fits (n := 26) h])
  | add | addu | sub | subu | and | or | xor | nor | slt | sltu | dadd | daddu | dsub | dsubu
  | sllv | srlv | srav | dsllv | dsrlv | dsrav | mult | multu | div | divu | dmult | dmultu | ddiv
  | ddivu | mfhi | mthi | mflo | mtlo | jr | jalr | sync =>
    change decodeWord (rWord _ _ _ _ _) = _
    rw [decodeWord_special (opcodeField_rWord ..), decodeSpecial, functField_rWord]
    exact congrArg Except.ok (by simp)
  | sll | srl | sra | dsll | dsrl | dsra | dsll32 | dsrl32 | dsra32 =>
    change decodeWord (rWord _ _ _ _ _) = _
    rw [decodeWord_special (opcodeField_rWord ..), decodeSpecial, functField_rWord]
    exact congrArg Except.ok (by
      simp only [rdField_rWord, rtField_rWord, saField_rWord, toNat_ofNat_of_fits (n := 5) h])
  | syscall | brk =>
    change decodeWord (callWord _ _) = _
    rw [decodeWord_special (opcodeField_callWord ..), decodeSpecial, functField_callWord]
    exact congrArg Except.ok (by
      simp only [callCodeField_callWord, toNat_ofNat_of_fits (n := 20) h])
  | tge | tgeu | tlt | tltu | teq | tne =>
    change decodeWord (trapWord _ _ _ _) = _
    rw [decodeWord_special (opcodeField_trapWord ..), decodeSpecial, functField_trapWord]
    exact congrArg Except.ok (by
      simp only [rsField_trapWord, rtField_trapWord, trapCodeField_trapWord,
        toNat_ofNat_of_fits (n := 10) h])
  | bltz | bgez | bltzl | bgezl | bltzal | bgezal | bltzall | bgezall | tgei | tgeiu | tlti | tltiu
  | teqi | tnei =>
    change decodeWord (iWord 0x01#6 _ _ _) = _
    rw [decodeWord_regimm (opcodeField_iWord ..), decodeRegimm, rtField_iWord]
    exact congrArg Except.ok (by simp)
  | mfc0 | dmfc0 | mtc0 | dmtc0 =>
    change decodeWord (moveWord 0x10#6 _ _ _) = _
    rw [decodeWord_cop0 (opcodeField_moveWord ..), decodeCop0, coBit_moveWord, decodeCop0Move,
      rsField_moveWord]
    exact congrArg Except.ok (by simp)
  | tlbr | tlbwi | tlbwr | tlbp | eret =>
    change decodeWord (coWord _) = _
    rw [decodeWord_cop0 (opcodeField_coWord ..), decodeCop0, coBit_coWord, decodeCop0Operation,
      functField_coWord]
    rfl
  | mfc1 | dmfc1 | cfc1 | mtc1 | dmtc1 | ctc1 =>
    change decodeWord (moveWord 0x11#6 _ _ _) = _
    rw [decodeWord_cop1 (opcodeField_moveWord ..), decodeCop1, rsField_moveWord]
    exact congrArg Except.ok (by simp)
  | bc1f | bc1t | bc1fl | bc1tl =>
    change decodeWord (iWord 0x11#6 0x08#5 _ _) = _
    rw [decodeWord_cop1 (opcodeField_iWord ..), decodeCop1_branch (rsField_iWord ..),
      decodeCop1Branch, rtField_iWord]
    exact congrArg Except.ok (by simp)
  | addS | subS | mulS | divS | sqrtS | absS | movS | negS | roundLS | truncLS | ceilLS | floorLS
  | roundWS | truncWS | ceilWS | floorWS | cvtDS | cvtWS | cvtLS | cFS | cUnS | cEqS | cUeqS
  | cOltS | cUltS | cOleS | cUleS | cSfS | cNgleS | cSeqS | cNglS | cLtS | cNgeS | cLeS | cNgtS =>
    change decodeWord (fpWord 0x10#5 _ _ _ _) = _
    rw [decodeWord_cop1 (opcodeField_fpWord ..), decodeCop1_single (rsField_fpWord ..),
      decodeCop1Single, functField_fpWord]
    exact congrArg Except.ok (by simp)
  | addD | subD | mulD | divD | sqrtD | absD | movD | negD | roundLD | truncLD | ceilLD | floorLD
  | roundWD | truncWD | ceilWD | floorWD | cvtSD | cvtWD | cvtLD | cFD | cUnD | cEqD | cUeqD
  | cOltD | cUltD | cOleD | cUleD | cSfD | cNgleD | cSeqD | cNglD | cLtD | cNgeD | cLeD | cNgtD =>
    change decodeWord (fpWord 0x11#5 _ _ _ _) = _
    rw [decodeWord_cop1 (opcodeField_fpWord ..), decodeCop1_double (rsField_fpWord ..),
      decodeCop1Double, functField_fpWord]
    exact congrArg Except.ok (by simp)
  | cvtSW | cvtDW =>
    change decodeWord (fpWord 0x14#5 _ _ _ _) = _
    rw [decodeWord_cop1 (opcodeField_fpWord ..), decodeCop1_word (rsField_fpWord ..),
      decodeCop1Word, functField_fpWord]
    exact congrArg Except.ok (by simp)
  | cvtSL | cvtDL =>
    change decodeWord (fpWord 0x15#5 _ _ _ _) = _
    rw [decodeWord_cop1 (opcodeField_fpWord ..), decodeCop1_long (rsField_fpWord ..),
      decodeCop1Long, functField_fpWord]
    exact congrArg Except.ok (by simp)

/-- The decoder on bytes that begin with those of a word it accepts (R160). -/
theorem decode_bytesOfWord {w : BitVec 32} {i : Instr} (h : decodeWord w = .ok i) (rest : List Byte) :
    decode (bytesOfWord w ++ rest) = .ok (i, rest) := by
  simp only [bytesOfWord, List.cons_append, List.nil_append, decode, wordOfBytes_bytesOfWord, h]

/-- Settles O1: the four bytes make the encoded word again, and the word decodes to its instruction. -/
theorem decodeEncode : Obligations.DecodeEncode :=
  fun _ rest h => decode_bytesOfWord (decodeWord_encode h) rest

/-! ### What a map accepts, and what it rejects -/

/-- A map's answer: a well-formed instruction where the word is not `reserved`, an error where it is. -/
def Reads (r : Except Reject Instr) (reserved : Prop) : Prop :=
  match r with
  | .ok i => i.wf = true ∧ ¬ reserved
  | .error _ => reserved

section
variable {r : Except Reject Instr} {reserved : Prop}

@[simp] theorem reads_ok {i : Instr} : Reads (.ok i) reserved ↔ i.wf = true ∧ ¬ reserved := Iff.rfl

@[simp] theorem reads_error {e : Reject} : Reads (.error e) reserved ↔ reserved := Iff.rfl

theorem Reads.wf (h : Reads r reserved) {i : Instr} (hr : r = .ok i) : i.wf = true := by
  subst hr
  exact h.1

theorem Reads.error_iff (h : Reads r reserved) : (∃ e, r = .error e) ↔ reserved := by
  cases r with
  | ok i => exact iff_of_false nofun h.2
  | error e => exact iff_of_true ⟨e, rfl⟩ h

theorem Reads.congr (h : Reads r reserved) {p : Prop} (hp : p ↔ reserved) : Reads r p := by rwa [hp]

end

/-- The functs of SPECIAL that select nothing (R170). -/
def SpecialReserved (fn : BitVec 6) : Prop :=
  fn ∈ [0x01#6, 0x05#6, 0x0A#6, 0x0B#6, 0x0E#6, 0x15#6, 0x28#6, 0x29#6, 0x35#6, 0x37#6, 0x39#6, 0x3D#6]

/-- An arm of a known funct reads its operands; the last arm is left with the reserved functs. -/
theorem decodeSpecial_reads (w : BitVec 32) : Reads (decodeSpecial w) (SpecialReserved (functField w)) := by
  unfold decodeSpecial SpecialReserved
  split
  case h_53 =>
    simp only [reads_error, imp_false, List.mem_cons, List.not_mem_nil, or_false] at *
    bv_omega
  all_goals
    next h => simp [h, Instr.wf]

/-- The sub-opcodes of REGIMM that select nothing (R171). -/
def RegimmReserved (rt : Reg) : Prop := (4 ≤ rt ∧ rt ≤ 7) ∨ rt = 13 ∨ rt = 15 ∨ 20 ≤ rt

theorem decodeRegimm_reads (w : BitVec 32) : Reads (decodeRegimm w) (RegimmReserved (rtField w)) := by
  unfold decodeRegimm RegimmReserved
  split
  case h_15 =>
    simp only [reads_error, imp_false] at *
    bv_omega
  all_goals
    next h => simp [h, Instr.wf]

/-- The COP0 words that select nothing: operations by funct, moves by bits 25:21 (R172). -/
def Cop0Reserved (w : BitVec 32) : Prop :=
  if w.getLsbD 25 then functField w ∉ [0x01#6, 0x02#6, 0x06#6, 0x08#6, 0x18#6]
  else rsField w ∉ [0x00#5, 0x01#5, 0x04#5, 0x05#5]

theorem decodeCop0_reads (w : BitVec 32) : Reads (decodeCop0 w) (Cop0Reserved w) := by
  unfold decodeCop0 Cop0Reserved coBit
  split
  · unfold decodeCop0Operation
    split <;> simp_all [Instr.wf]
  · unfold decodeCop0Move
    split <;> simp_all [Instr.wf]

theorem decodeCop1Branch_reads (w : BitVec 32) : Reads (decodeCop1Branch w) (4 ≤ rtField w) := by
  unfold decodeCop1Branch
  split
  case h_5 =>
    simp only [reads_error, imp_false] at *
    bv_omega
  all_goals
    next h => simp [h, Instr.wf]

theorem decodeCop1Single_reads (w : BitVec 32) : Reads (decodeCop1Single w)
    (¬ (functField w ≤ 0x0F ∨ functField w ∈ [0x21#6, 0x24#6, 0x25#6] ∨ 0x30 ≤ functField w)) := by
  unfold decodeCop1Single
  split
  case h_36 =>
    simp only [reads_error, imp_false, List.mem_cons, List.not_mem_nil, or_false] at *
    bv_omega
  all_goals
    next h => simp [h, Instr.wf]

theorem decodeCop1Double_reads (w : BitVec 32) : Reads (decodeCop1Double w)
    (¬ (functField w ≤ 0x0F ∨ functField w ∈ [0x20#6, 0x24#6, 0x25#6] ∨ 0x30 ≤ functField w)) := by
  unfold decodeCop1Double
  split
  case h_36 =>
    simp only [reads_error, imp_false, List.mem_cons, List.not_mem_nil, or_false] at *
    bv_omega
  all_goals
    next h => simp [h, Instr.wf]

theorem decodeCop1Word_reads (w : BitVec 32) :
    Reads (decodeCop1Word w) (functField w ∉ [0x20#6, 0x21#6]) := by
  unfold decodeCop1Word
  split <;> simp_all [Instr.wf]

theorem decodeCop1Long_reads (w : BitVec 32) :
    Reads (decodeCop1Long w) (functField w ∉ [0x20#6, 0x21#6]) := by
  unfold decodeCop1Long
  split <;> simp_all [Instr.wf]

/-- The COP1 words that select nothing: by bits 25:21, then by condition or by funct (R173, R174). -/
def Cop1Reserved (rs rt : Reg) (fn : BitVec 6) : Prop :=
  rs ∉ [0x00#5, 0x01#5, 0x02#5, 0x04#5, 0x05#5, 0x06#5, 0x08#5, 0x10#5, 0x11#5, 0x14#5, 0x15#5] ∨
    (rs = 0x08 ∧ 4 ≤ rt) ∨
    (rs = 0x10 ∧ ¬ (fn ≤ 0x0F ∨ fn ∈ [0x21#6, 0x24#6, 0x25#6] ∨ 0x30 ≤ fn)) ∨
    (rs = 0x11 ∧ ¬ (fn ≤ 0x0F ∨ fn ∈ [0x20#6, 0x24#6, 0x25#6] ∨ 0x30 ≤ fn)) ∨
    ((rs = 0x14 ∨ rs = 0x15) ∧ fn ∉ [0x20#6, 0x21#6])

theorem decodeCop1_reads (w : BitVec 32) :
    Reads (decodeCop1 w) (Cop1Reserved (rsField w) (rtField w) (functField w)) := by
  unfold decodeCop1
  split
  case h_7 h => exact (decodeCop1Branch_reads w).congr (by simp [Cop1Reserved, h])
  case h_8 h => exact (decodeCop1Single_reads w).congr (by simp [Cop1Reserved, h])
  case h_9 h => exact (decodeCop1Double_reads w).congr (by simp [Cop1Reserved, h])
  case h_10 h => exact (decodeCop1Word_reads w).congr (by simp [Cop1Reserved, h])
  case h_11 h => exact (decodeCop1Long_reads w).congr (by simp [Cop1Reserved, h])
  case h_12 => exact .inl (by simp_all)
  all_goals
    next h => simp [Cop1Reserved, h, Instr.wf]

/-- The words that select nothing (R176). -/
def ReservedWord (w : BitVec 32) : Prop :=
  opcodeField w ∈ [0x13#6, 0x1C#6, 0x1D#6, 0x1E#6, 0x1F#6, 0x32#6, 0x33#6, 0x36#6, 0x3A#6, 0x3B#6, 0x3E#6] ∨
    (opcodeField w = 0 ∧ SpecialReserved (functField w)) ∨
    (opcodeField w = 1 ∧ RegimmReserved (rtField w)) ∨
    (opcodeField w = 0x10 ∧ Cop0Reserved w) ∨
    (opcodeField w = 0x11 ∧ Cop1Reserved (rsField w) (rtField w) (functField w))

/-- Major opcode by major opcode, through the four maps below it. -/
theorem decodeWord_reads (w : BitVec 32) : Reads (decodeWord w) (ReservedWord w) := by
  unfold decodeWord
  split
  case h_1 h => exact (decodeSpecial_reads w).congr (by simp [ReservedWord, h])
  case h_2 h => exact (decodeRegimm_reads w).congr (by simp [ReservedWord, h])
  case h_17 h => exact (decodeCop0_reads w).congr (by simp [ReservedWord, h])
  case h_18 h => exact (decodeCop1_reads w).congr (by simp [ReservedWord, h])
  case h_54 =>
    refine .inl ?_
    simp only [imp_false, List.mem_cons, List.not_mem_nil, or_false] at *
    bv_omega
  all_goals
    next h => simp [ReservedWord, h, Instr.wf]

/-- Settles O2: every map reads well-formed instructions, and a well-formed instruction is read back from
its encoding. -/
theorem decodedWellFormed : Obligations.DecodedWellFormed := fun w _ h =>
  have wf := (decodeWord_reads w).wf h
  ⟨wf, decodeWord_encode wf⟩

/-- Settles O4: each map rejects exactly its reserved words. -/
theorem reservedWords : Obligations.ReservedWords := fun w => (decodeWord_reads w).error_iff

/-- Settles O3: the decoder runs on each word. -/
theorem sampleWords : Obligations.SampleWords :=
  ⟨rfl, rfl, rfl, rfl, rfl, rfl, rfl, rfl, rfl, rfl, rfl⟩

end Sys2Proof

namespace Sys2Proof.Machine

/-! ### Reserved words and disabled operations when they run (R177, R503) -/

/-- A word the decoder rejects raises Reserved-Instruction (R503, R547(a)). -/
theorem runFetched_rejected {w : BitVec 32} {e : Reject} (h : decodeWord w = .error e) (s : State) :
    runFetched (.word w) s = raise .reservedInstruction s := by
  simp only [runFetched, h]

/-- Settles O6: no test comes between the decoder's rejection and the fault. -/
theorem unrecognizedWordRaises : Obligations.UnrecognizedWordRaises := by
  intro s w e fetched rejected
  obtain ⟨t, run, raised⟩ := raise_spec .reservedInstruction s.dispatch
  refine ⟨t, adviseOut_next.2 ⟨t, ?_, rfl⟩, raised⟩
  rw [fetched, runFetched_rejected rejected, run]

theorem ops64_iff (s : State) : s.ops64 = true ↔
    s.mode = .kernel ∨ (s.mode = .supervisor ∧ s.cp0.status.getLsbD 6 = true) ∨
      (s.mode = .user ∧ s.cp0.status.getLsbD 5 = true) := by
  unfold State.ops64
  cases s.mode <;> simp [statusSx, statusUx]

/-- A 64-bit operation tests Ops64() before anything but its coprocessor (R177, R573). -/
theorem exec_of_ops64_disabled {i : Instr} {s : State} (wide : i.is64Bit = true) (h : s.ops64 = false)
    (cop0 : i.coprocessor = some 0 → s.copUsable0 = true)
    (cop1 : i.coprocessor = some 1 → s.copUsable1 = true) :
    exec i s = raise .reservedInstruction s := by
  cases i with
  | daddi | daddiu | dadd | daddu | dsub | dsubu | dsll | dsrl | dsra | dsll32 | dsrl32 | dsra32
  | dsllv | dsrlv | dsrav | dmult | dmultu | ddiv | ddivu | lwu | ld | ldl | ldr | sd | sdl | sdr
  | lld | scd => exact withOps64_of_not h _
  | dmfc0 | dmtc0 => exact (withCop0_of (cop0 rfl) _).trans (withOps64_of_not h _)
  | dmfc1 | dmtc1 => exact (withCop1_of (cop1 rfl) _).trans (withOps64_of_not h _)
  | _ => cases wide

/-- Settles O23: Ops64() by mode, then the test of each 64-bit operation. -/
theorem disabledDoubleword : Obligations.DisabledDoubleword :=
  ⟨ops64_iff, fun _ s wide h cop0 cop1 =>
    exec_of_ops64_disabled wide h cop0 cop1 ▸ raise_spec .reservedInstruction s⟩

end Sys2Proof.Machine
end

section
/-! PROOFS. The frame: every operation on the state keeps what its footprint does not name, so every
instruction does, however it ends; a store leaves the bytes outside its span alone. -/

namespace Sys2Proof.Machine

/-! ### The system-control registers by number (R50) -/

section
variable {k : Reg}

/-- A move to a system-control register shows in that register, and with Wired in Random (R75, R76):
register written by register read. -/
theorem cp0Value_write {n : Reg} (hk : k ∉ (Effect.cp0 n).cp0Targets) (s : State) (v : Word) :
    ({ s with cp0 := s.cp0.write n v } : State).cp0Value k = s.cp0Value k := by
  unfold Cp0.write
  dsimp only
  split <;>
    (unfold State.cp0Value
     split <;> simp [Effect.cp0Targets, State.cause, State.hardwareIp] at hk ⊢)

/-- The timer latch shows in Cause alone (R63, R89). -/
theorem cp0Value_timerIp (hk : k ≠ 13) (s : State) (b : Bool) :
    ({ s with timerIp := b } : State).cp0Value k = s.cp0Value k := by
  unfold State.cp0Value
  split
  case h_13 => exact absurd rfl hk
  all_goals rfl

theorem cp0Value_writeCp0 {n : Reg} (hk : k ∉ (Effect.cp0 n).cp0Targets) (s : State) (v : Word) :
    (s.writeCp0 n v).cp0Value k = s.cp0Value k := by
  refine Eq.trans ?_ (cp0Value_write hk s v)
  unfold State.writeCp0
  by_cases compare : n = 11#5
  · subst compare
    have cause : k ≠ 13 := fun h => hk (by simp [h, Effect.cp0Targets])
    exact cp0Value_timerIp cause { s with cp0 := s.cp0.write 11#5 v } _
  · rw [if_neg compare]

theorem cp0Value_readTlb (hk : k ∉ Effect.tlbRead.cp0Targets) (s : State) (e : TlbEntry) :
    ({ s with cp0 := s.cp0.readTlb e } : State).cp0Value k = s.cp0Value k := by
  unfold State.cp0Value
  split <;> simp [Effect.cp0Targets, Cp0.readTlb, State.cause, State.hardwareIp] at hk ⊢

theorem cp0Value_setProbe (hk : k ≠ 0) (s : State) (found : Option Nat) :
    (s.setProbe found).cp0Value k = s.cp0Value k := by
  unfold State.cp0Value
  split
  case h_1 => exact absurd rfl hk
  all_goals rfl

theorem cp0Value_setLink (hk : k ≠ 17) (s : State) (pa : PAddr) :
    (s.setLink pa).cp0Value k = s.cp0Value k := by
  unfold State.cp0Value
  split
  case h_17 => exact absurd rfl hk
  all_goals rfl

theorem cp0Value_status (hk : k ≠ 12) (s : State) (st : BitVec 32) :
    ({ s with cp0 := { s.cp0 with status := st } } : State).cp0Value k = s.cp0Value k := by
  unfold State.cp0Value
  split
  case h_12 => exact absurd rfl hk
  all_goals rfl

end

/-! ### What each operation keeps -/

section
variable {e : Effect} {s u t : State}

theorem keeps_commitLoad (e : Effect) (s : State) : Keeps e s s.commitLoad := by
  rw [commitLoad_eq]
  exact {
    gpr := fun r _ => readGpr_commitLoad s r
    hi := fun _ => rfl
    lo := fun _ => rfl
    llbit := fun _ => rfl
    fpr := fun _ _ => rfl
    fcr31 := fun _ => rfl
    cp0 := fun _ _ => rfl
    tlb := fun _ => rfl
    mem := fun _ => rfl
    irq := rfl
    timerIp := fun _ => rfl
    rng := rfl
    ports := rfl
    fpu := rfl
    draws := rfl }

theorem Keeps.setGpr (h : Keeps e s u) {rd : Reg} (he : e.gprTarget = some rd) (v : Word) :
    Keeps e s (u.setGpr rd v) := by
  rw [setGpr_eq]
  exact { h with
    gpr := fun r hr => by
      have other : r ≠ rd := fun hrd => hr (by rw [he, hrd])
      refine (readGpr_setGpr u rd r v).trans ?_
      rw [if_neg fun c => other c.1]
      exact h.gpr r hr }

theorem Keeps.delayLoad (h : Keeps e s u) (r : Reg) (v : Word) : Keeps e s (u.delayLoad r v) :=
  { h with }

theorem Keeps.setLink (h : Keeps e s u) (he : e.writesLink = true) (hc : 17 ∈ e.cp0Targets) (pa : PAddr) :
    Keeps e s (u.setLink pa) :=
  { h with
    llbit := fun c => by simp [he] at c
    cp0 := fun n hn => (cp0Value_setLink (fun h17 => hn (by rwa [h17])) u pa).trans (h.cp0 n hn) }

theorem Keeps.store (h : Keeps e s u) (he : e.writesMem = true) (pa : PAddr) (n : Nat) (v : Word) :
    Keeps e s (u.store pa n v) :=
  { h with mem := fun c => by simp [he] at c }

theorem Keeps.setHi (h : Keeps e s u) (he : e.writesHi = true) (v : Word) : Keeps e s (u.setHi v) :=
  { h with hi := fun c => by simp [he] at c }

theorem Keeps.setLo (h : Keeps e s u) (he : e.writesLo = true) (v : Word) : Keeps e s (u.setLo v) :=
  { h with lo := fun c => by simp [he] at c }

theorem Keeps.setLoHi (h : Keeps e s u) (hl : e.writesLo = true) (hh : e.writesHi = true)
    (r : Word × Word) : Keeps e s (u.setLoHi r) :=
  { h with
    hi := fun c => by simp [hh] at c
    lo := fun c => by simp [hl] at c }

theorem Keeps.writeCp0 {n : Reg} (h : Keeps (.cp0 n) s u) (v : Word) :
    Keeps (.cp0 n) s (u.writeCp0 n v) :=
  { h with
    cp0 := fun k hk => (cp0Value_writeCp0 hk u v).trans (h.cp0 k hk)
    timerIp := fun he => (if_neg fun hn => he (congrArg Effect.cp0 hn)).trans (h.timerIp he) }

theorem Keeps.readTlb (h : Keeps .tlbRead s u) (x : TlbEntry) :
    Keeps .tlbRead s { u with cp0 := u.cp0.readTlb x } :=
  { h with cp0 := fun k hk => (cp0Value_readTlb hk u x).trans (h.cp0 k hk) }

theorem Keeps.writeTlb (h : Keeps .tlbWrite s u) (i : BitVec 5) : Keeps .tlbWrite s (u.writeTlb i) :=
  { h with tlb := fun c => absurd rfl c }

theorem Keeps.setProbe (h : Keeps .tlbProbe s u) (found : Option Nat) :
    Keeps .tlbProbe s (u.setProbe found) :=
  { h with
    cp0 := fun k hk => (cp0Value_setProbe (fun h0 => hk (by simp [h0, Effect.cp0Targets])) u found).trans
      (h.cp0 k hk) }

theorem Keeps.setFcr31 (h : Keeps e s u) (he : e.writesFcr31 = true) (f : BitVec 32) :
    Keeps e s (u.setFcr31 f) :=
  { h with fcr31 := fun c => by simp [he] at c }

/-- A write of one floating-point register, of any width and form. -/
theorem Keeps.writeFpr (h : Keeps e s u) {fd : Reg} (he : e.fprTarget = some fd) (hc : u.cp0 = s.cp0)
    (only : t = { u with fpr := t.fpr }) (other : ∀ k ≠ u.fprIndex fd, t.readFpr k = u.readFpr k) :
    Keeps e s t := by
  have fpr : ∀ k, e.fprTarget.map s.fprIndex ≠ some k → t.readFpr k = s.readFpr k := fun k hk => by
    have hne : k ≠ u.fprIndex fd := fun hkf => hk (by rw [he, hkf, fprIndex_congr hc]; rfl)
    exact (other k hne).trans (h.fpr k hk)
  rw [only] at fpr ⊢
  exact { h with fpr := fpr }

/-- The pc and the branch state are in no footprint. -/
theorem Keeps.sequenced (h : Keeps e s u) (pc : Word) (br : Option BranchPending) :
    Keeps e s { u with pc := pc, br := br } := { h with }

theorem Keeps.exceptionReturn (h : Keeps .exceptionReturn s u) :
    Keeps .exceptionReturn s u.exceptionReturn := by
  have status (st : BitVec 32) (k : Reg) (hk : k ∉ Effect.exceptionReturn.cp0Targets) :
      ({ u with cp0 := { u.cp0 with status := st } } : State).cp0Value k = s.cp0Value k :=
    (cp0Value_status (fun h12 => hk (by simp [h12, Effect.cp0Targets])) u st).trans (h.cp0 k hk)
  unfold State.exceptionReturn
  split
  · exact { h with llbit := nofun, cp0 := status _ }
  · exact { h with llbit := nofun, cp0 := status _ }

theorem keeps_raised (e : Effect) (s : State) (kind : FaultKind) (ce : BitVec 2) (bad : Option Word) :
    Keeps e s (s.raised kind ce bad) := { keeps_commitLoad e s with }

/-- A fault raised after FCR31 was written keeps what the write kept. -/
theorem Keeps.of_setFcr31 {f : BitVec 32} (h : Keeps e (s.setFcr31 f) t) (he : e.writesFcr31 = true) :
    Keeps e s t := { h with fcr31 := fun c => by simp [he] at c }

/-! ### What every instruction keeps -/

/-- An instruction's own writes are in its footprint. -/
theorem keeps_body (b : Body s e u) : Keeps e s u := by
  have h := keeps_commitLoad e s
  cases b with
  | nothing => exact h
  | gpr rd v => exact h.setGpr rfl v
  | load rt v => exact h.delayLoad rt v
  | loadLinked rt pa v => exact (h.setLink rfl (by simp [Effect.cp0Targets]) pa).delayLoad rt v
  | store pa n v => exact h.store rfl pa n v
  | stored rt pa n v w => exact (h.store rfl pa n v).setGpr rfl w
  | notStored rt w => exact h.setGpr rfl w
  | hi v => exact h.setHi rfl v
  | lo v => exact h.setLo rfl v
  | hiLo r => exact h.setLoHi rfl rfl r
  | branch => exact h
  | branchLink rd => exact h.setGpr rfl _
  | cp0 n v => exact h.writeCp0 v
  | tlbRead x => exact h.readTlb x
  | tlbWrite i => exact h.writeTlb i
  | tlbProbe found _ => exact h.setProbe found
  | fpr64 fd v =>
    exact h.writeFpr rfl (commitLoad_cp0 s) rfl fun k hk => (readFpr_setFpr ..).trans (if_neg hk)
  | fpr32 fd v =>
    exact h.writeFpr rfl (commitLoad_cp0 s) (writeF32Move_eq ..) fun k => writeF32Move_other _ fd k v
  | fcr31 f _ => exact h.setFcr31 rfl f
  | fcr31Kept => exact h
  | fprFcr31 wide fd v f _ =>
    exact (h.setFcr31 rfl f).writeFpr rfl (commitLoad_cp0 s) (writeFp_eq ..)
      fun k => writeFp_other _ wide fd k v

/-- Every way to a next state keeps what the footprint does not name. -/
theorem keeps_ran (r : Ran e s t) : Keeps e s t := by
  cases r with
  | done u b _ _ eq => rw [eq, advance_eq]; exact (keeps_body b).sequenced _ _
  | took u target b _ eq => rw [eq, branchTo_eq]; exact (keeps_body b).sequenced _ _
  | nullified u b _ eq => exact eq ▸ (keeps_body b).sequenced _ _
  | returned he eq => subst he; exact eq ▸ (keeps_commitLoad _ s).exceptionReturn
  | raised kind ce bad _ _ _ eq => exact eq ▸ keeps_raised e s kind ce bad
  | raisedFp f he _ eq => exact eq ▸ (keeps_raised e (s.setFcr31 f) ..).of_setFcr31 he

end

/-- A bus write leaves the bytes outside it alone, whoever owns the address (R141, R143). -/
theorem byteAt_store_outside (s : State) (pa : PAddr) (n : Nat) (v : Word) (a : Nat)
    (ha : ∀ i < n, Memory.addr pa i ≠ a) :
    Memory.byteAt (s.store pa n v).mem a = Memory.byteAt s.mem a := by
  by_cases ho : s.owner pa = .ram
  · rw [store_ram ho]; exact byteAt_write_outside s.mem pa n v a ha
  · rw [store_ignored ho]

/-- Settles O18: every way an instruction can end keeps what its footprint does not name, and its one bus
write, if there is one, is where its shape says. -/
theorem footprint : Obligations.Footprint := by
  intro i s t run
  have keeps := keeps_ran ((exec_runs i s).ran t run)
  refine ⟨keeps, fun storeless => keeps.mem (by rw [writesMem_eq, storeless]; rfl), fun h shape => ?_⟩
  obtain same | ⟨pa, attr, v, maps, stored⟩ := (exec_stores shape s).mem t run
  · exact ⟨fun _ _ _ _ _ => by rw [same], fun _ => same⟩
  · refine ⟨fun pa' attr' maps' a outside => ?_, fun unmapped => absurd maps (unmapped pa attr)⟩
    cases maps.symm.trans maps'
    rw [stored]
    exact byteAt_store_outside s _ _ v a outside

end Sys2Proof.Machine
end

section
/-! PROOFS. Integer computation: each result in the terms of the statements, bit by bit or as an exact
number, and the register write or the Overflow it ends in. -/

namespace Sys2Proof.Machine

/-! ### Words, immediates and shift amounts (R167, R200) -/

theorem lowWord_eq (v : Word) : lowWord v = v.setWidth 32 :=
  (BitVec.setWidth_eq_extractLsb' (by decide)).symm

theorem lowWord_add (x y : Word) : lowWord x + lowWord y = (x + y).setWidth 32 := by
  rw [lowWord_eq, lowWord_eq, BitVec.setWidth_add x y (by decide)]

theorem lowWord_sub (x y : Word) : lowWord x - lowWord y = (x - y).setWidth 32 := by
  rw [lowWord_eq, lowWord_eq]; bv_omega

/-- The word immediate is the low word of the doubleword immediate (R201). -/
theorem sextImm32_eq (imm : BitVec 16) : sextImm32 imm = lowWord (sextImm imm) := by
  rw [lowWord_eq]
  apply BitVec.eq_of_getLsbD_eq
  intro k hk
  have hk' : k < 64 := by omega
  rw [sextImm32, sextImm, BitVec.getLsbD_setWidth, BitVec.getLsbD_signExtend, BitVec.getLsbD_signExtend]
  simp only [hk, hk', decide_true, Bool.true_and]

theorem toInt_sextImm32 (imm : BitVec 16) : (sextImm32 imm).toInt = imm.toInt :=
  BitVec.toInt_signExtend_of_le (by decide)

theorem getLsbD_zextImm (imm : BitVec 16) {k : Nat} (hk : k < 64) :
    (zextImm imm).getLsbD k = imm.getLsbD k := by
  simp [zextImm, hk]

/-- Bit 31 of LUI's word, the top bit of the immediate, repeats above it (R208). -/
theorem getLsbD_upperImm (imm : BitVec 16) {k : Nat} (hk : k < 64) : (upperImm imm).getLsbD k =
    if k < 16 then false else if k < 32 then imm.getLsbD (k - 16) else imm.getLsbD 15 := by
  rw [upperImm, sext32, BitVec.getLsbD_signExtend, BitVec.msb_eq_getLsbD_last]
  simp only [BitVec.getLsbD_append, BitVec.getLsbD_zero, hk]
  by_cases low : k < 16
  · have word : k < 32 := by omega
    simp [low, word]
  · by_cases word : k < 32 <;> simp [low, word]

/-- The sign extension of a word is the number the word is (R8). -/
theorem sext32_eq (v : BitVec 32) : sext32 v = BitVec.ofInt 64 v.toInt := rfl

theorem shiftAmount5_eq (v : Word) : shiftAmount5 v = v.toNat % 32 := by
  simp [shiftAmount5, BitVec.extractLsb'_toNat]

theorem shiftAmount6_eq (v : Word) : shiftAmount6 v = v.toNat % 64 := by
  simp [shiftAmount6, BitVec.extractLsb'_toNat]

theorem ofFlag_decide (p : Prop) [Decidable p] : ofFlag (decide p) = if p then 1 else 0 := by
  by_cases h : p <;> simp [ofFlag, h]

theorem ofFlag_slt (a b : Word) : ofFlag (a.slt b) = if a.toInt < b.toInt then 1 else 0 := by
  rw [BitVec.slt_eq_decide, ofFlag_decide]

theorem ofFlag_ult (a b : Word) : ofFlag (a.ult b) = if a.toNat < b.toNat then 1 else 0 := by
  rw [BitVec.ult_eq_decide, ofFlag_decide]

/-! ### Results as exact numbers, of any width -/

section
variable {n : Nat}

theorem add_eq_ofInt (a b : BitVec n) : a + b = BitVec.ofInt n (a.toInt + b.toInt) :=
  BitVec.eq_of_toInt_eq (by rw [BitVec.toInt_add, BitVec.toInt_ofInt])

theorem sub_eq_ofInt (a b : BitVec n) : a - b = BitVec.ofInt n (a.toInt - b.toInt) :=
  BitVec.eq_of_toInt_eq (by rw [BitVec.toInt_sub, BitVec.toInt_ofInt])

theorem shiftLeft_eq_ofNat (w : BitVec n) (k : Nat) : w <<< k = BitVec.ofNat n (w.toNat * 2 ^ k) :=
  BitVec.eq_of_toNat_eq (by simp [Nat.shiftLeft_eq])

theorem ushiftRight_eq_ofNat (w : BitVec n) (k : Nat) : w >>> k = BitVec.ofNat n (w.toNat / 2 ^ k) := by
  rw [← Nat.shiftRight_eq_div_pow, ← BitVec.toNat_ushiftRight, BitVec.ofNat_toNat, BitVec.setWidth_eq]

/-- A right shift with the sign rounds toward minus infinity (R227, R233). -/
theorem toInt_sshiftRight_eq_div (w : BitVec n) (k : Nat) :
    (w.sshiftRight k).toInt = w.toInt / 2 ^ k := by
  rw [BitVec.toInt_sshiftRight, Int.shiftRight_eq_div_pow, Nat.cast_pow, Nat.cast_ofNat]

theorem sshiftRight_eq_ofInt (w : BitVec n) (k : Nat) :
    w.sshiftRight k = BitVec.ofInt n (w.toInt / 2 ^ k) := by
  rw [← toInt_sshiftRight_eq_div, BitVec.ofInt_toInt]

end

theorem sext32_sshiftRight (w : BitVec 32) (k : Nat) :
    sext32 (w.sshiftRight k) = BitVec.ofInt 64 (w.toInt / 2 ^ k) := by
  rw [sext32_eq, toInt_sshiftRight_eq_div]

theorem outsideSigned_eq_false {bits : Nat} {r : Int} :
    outsideSigned bits r = false ↔ -2 ^ bits ≤ r ∧ r < 2 ^ bits := by
  simp [outsideSigned]

/-! ### How each shape ends -/

section
variable {s : State} {rd : Reg}

theorem writeBack_eq {v r : Word} (h : v = r) :
    ∃ t, writeBack rd v s = .next t ∧ WroteGpr s t rd r := h ▸ writeBack_spec rd v s

theorem plainDouble_eq (h64 : s.ops64 = true) {v r : Word} (h : v = r) :
    ∃ t, plainDouble rd v s = .next t ∧ WroteGpr s t rd r := by
  rw [plainDouble, withOps64_of h64]; exact writeBack_eq h

theorem writeBack_bits {v : Word} {bit : Nat → Bool} (h : ∀ k < 64, v.getLsbD k = bit k) :
    ∃ t, writeBack rd v s = .next t ∧
      ∃ v : Word, WroteGpr s t rd v ∧ ∀ k < 64, v.getLsbD k = bit k := by
  obtain ⟨t, run, wrote⟩ := writeBack_spec rd v s
  exact ⟨t, run, v, wrote, h⟩

/-- A result that is `x` modulo 2^32 is `x` where the Overflow test lets it pass (R201, R211, R213). -/
theorem trappingWord_spec {r : BitVec 32} {x : Int} (h : r = BitVec.ofInt 32 x) :
    (-2 ^ 31 ≤ x ∧ x < 2 ^ 31 →
      ∃ t, trappingWord rd (outsideSigned 31 x) r s = .next t ∧
        WroteGpr s t rd (BitVec.ofInt 64 x)) ∧
    (¬ (-2 ^ 31 ≤ x ∧ x < 2 ^ 31) →
      ∃ t, trappingWord rd (outsideSigned 31 x) r s = .next t ∧
        Raised s t .arithmeticOverflow 0 none) := by
  rw [← outsideSigned_eq_false, Bool.not_eq_false]
  refine ⟨fun fits => ?_, fun overflows => ?_⟩
  · obtain ⟨lower, upper⟩ := outsideSigned_eq_false.1 fits
    rw [fits]
    refine writeBack_eq ?_
    rw [sext32_eq, h, BitVec.toInt_ofInt_eq_self (by decide) lower upper]
  · rw [overflows]; exact raise_spec ..

/-- A result that is `x` modulo 2^64 is `x` where the Overflow test lets it pass (R209, R221, R223). -/
theorem trappingDouble_spec (h64 : s.ops64 = true) {r : Word} {x : Int}
    (h : r = BitVec.ofInt 64 x) :
    (-2 ^ 63 ≤ x ∧ x < 2 ^ 63 →
      ∃ t, trappingDouble rd (outsideSigned 63 x) r s = .next t ∧
        ∃ v, v.toInt = x ∧ WroteGpr s t rd v) ∧
    (¬ (-2 ^ 63 ≤ x ∧ x < 2 ^ 63) →
      ∃ t, trappingDouble rd (outsideSigned 63 x) r s = .next t ∧
        Raised s t .arithmeticOverflow 0 none) := by
  rw [← outsideSigned_eq_false, Bool.not_eq_false, trappingDouble, withOps64_of h64]
  refine ⟨fun fits => ?_, fun overflows => ?_⟩
  · obtain ⟨lower, upper⟩ := outsideSigned_eq_false.1 fits
    obtain ⟨t, run, wrote⟩ := writeBack_spec rd r s
    rw [fits]
    exact ⟨t, run, r, h ▸ BitVec.toInt_ofInt_eq_self (by decide) lower upper, wrote⟩
  · rw [overflows]; exact raise_spec ..

end

/-! ### Sums and differences (R201, R202, R209 to R214, R221 to R224) -/

/-- Settles O25: the low word of a sum or difference depends on the low words alone. -/
theorem addSubtractWord : Obligations.AddSubtractWord := fun _ _ _ _ _ =>
  ⟨writeBack_eq (congrArg sext32 (lowWord_add ..)), writeBack_eq (congrArg sext32 (lowWord_sub ..)),
    writeBack_eq (congrArg sext32 (sextImm32_eq _ ▸ lowWord_add ..))⟩

/-- Settles O27: on doublewords the sum and the difference wrap, and pass the Overflow test where they are
exact. -/
theorem doublewordArithmetic : Obligations.DoublewordArithmetic := fun _ _ _ _ _ h64 =>
  ⟨plainDouble_eq h64 rfl, plainDouble_eq h64 rfl, plainDouble_eq h64 rfl,
    trappingDouble_spec h64 (add_eq_ofInt ..), trappingDouble_spec h64 (sub_eq_ofInt ..),
    trappingDouble_spec h64 (add_eq_ofInt ..)⟩

/-! ### Bitwise functions and comparisons (R203 to R208, R215 to R220) -/

/-- Settles O28: each bit of the result, the immediates zero-extended first. -/
theorem logical : Obligations.Logical := fun _ _ _ _ _ =>
  ⟨writeBack_bits fun _ _ => BitVec.getLsbD_and, writeBack_bits fun _ _ => BitVec.getLsbD_or,
    writeBack_bits fun _ _ => BitVec.getLsbD_xor,
    writeBack_bits fun _ hk => by simp [hk],
    writeBack_bits fun _ hk => by rw [BitVec.getLsbD_and, getLsbD_zextImm _ hk],
    writeBack_bits fun _ hk => by rw [BitVec.getLsbD_or, getLsbD_zextImm _ hk],
    writeBack_bits fun _ hk => by rw [BitVec.getLsbD_xor, getLsbD_zextImm _ hk],
    writeBack_bits fun _ hk => getLsbD_upperImm _ hk⟩

/-- Settles O29: each comparison by the numbers it compares. -/
theorem setLessThan : Obligations.SetLessThan := fun _ _ _ _ _ =>
  ⟨writeBack_eq (ofFlag_slt ..), writeBack_eq (ofFlag_ult ..), writeBack_eq (ofFlag_slt ..),
    writeBack_eq (ofFlag_ult ..)⟩

/-! ### Shifts (R225 to R240) -/

/-- Settles O30: the three shifts of the low word by any amount, then the amounts of the six forms. -/
theorem shiftWord : Obligations.ShiftWord := by
  intro s rd rt rs
  simp only [← lowWord_eq, ← shiftAmount5_eq]
  have left k := writeBack_eq (s := s) (rd := rd)
    (congrArg sext32 (shiftLeft_eq_ofNat (lowWord (s.readGpr rt)) k))
  have right k := writeBack_eq (s := s) (rd := rd)
    (congrArg sext32 (ushiftRight_eq_ofNat (lowWord (s.readGpr rt)) k))
  have arith k := writeBack_eq (s := s) (rd := rd) (sext32_sshiftRight (lowWord (s.readGpr rt)) k)
  exact ⟨fun sa _ => ⟨left sa, right sa, arith sa⟩, left _, right _, arith _⟩

/-- Settles O31: the three shifts of the register by any amount, then the amounts of the nine forms. -/
theorem shiftDoubleword : Obligations.ShiftDoubleword := by
  intro s rd rt rs h64
  simp only [← shiftAmount6_eq]
  have left k := plainDouble_eq (rd := rd) h64 (shiftLeft_eq_ofNat (s.readGpr rt) k)
  have right k := plainDouble_eq (rd := rd) h64 (ushiftRight_eq_ofNat (s.readGpr rt) k)
  have arith k := plainDouble_eq (rd := rd) h64 (sshiftRight_eq_ofInt (s.readGpr rt) k)
  exact ⟨fun sa _ => ⟨left sa, right sa, arith sa, left (sa + 32), right (sa + 32), arith (sa + 32)⟩,
    left _, right _, arith _⟩

end Sys2Proof.Machine

namespace Sys2Proof
open Machine

/-- Settles O26: the sum or difference of two words is the exact one modulo 2^32, and passes the Overflow
test where it is exact. (In `Sys2Proof.Machine` the name is the model's own shape of a trapping word.) -/
theorem trappingWord : Obligations.TrappingWord := by
  intro s rd rs rt imm
  simp only [← lowWord_eq, ← toInt_sextImm32]
  exact ⟨trappingWord_spec (add_eq_ofInt ..), trappingWord_spec (sub_eq_ofInt ..),
    trappingWord_spec (add_eq_ofInt ..)⟩

end Sys2Proof
end

section
/-! PROOFS. Multiply, divide, HI and LO: the halves of a product and the cases of a division as exact
numbers, and the write of LO and HI each ends in. -/

namespace Sys2Proof.Machine

/-! ### How a write of HI or LO ends (R250) -/

section
variable {s : State} {r : Word × Word} {i : Instr} {lo hi : Word}

/-- An instruction that leaves LO and HI as `r` says; one of the two may be the value `s` holds. -/
theorem completeLoHi_spec {f : State → State} (h : f s.commitLoad = s.commitLoad.setLoHi r) :
    ∃ t, complete f s = .next t ∧ Advanced s t none ∧ SameButGpr (s.setLoHi r) t := by
  rw [complete_next, h]
  refine ⟨_, rfl, advanced_of (by simp [State.setLoHi]) (by simp [State.setLoHi])
    (by simp [State.setLoHi]) fun q => readGpr_commitLoad s q, ?_⟩
  simp [SameButGpr, advance_eq, State.setLoHi]

/-- Values are claimed where the operands are `normal`; that the instruction completes with its frame,
everywhere. -/
theorem setLoHi_spec {normal : Prop} (run : exec i s = complete (·.setLoHi r) s)
    (h : normal → r = (lo, hi)) :
    ∃ t, exec i s = .next t ∧ Advanced s t none ∧ (normal → t.lo = lo ∧ t.hi = hi) ∧
      SameButGpr { s with lo := t.lo, hi := t.hi } t := by
  obtain ⟨t, next, advanced, same⟩ := completeLoHi_spec (s := s) (f := (·.setLoHi r)) rfl
  have lo_eq : t.lo = r.1 := congrArg State.lo same
  have hi_eq : t.hi = r.2 := congrArg State.hi same
  refine ⟨t, run.trans next, advanced, fun n => ?_, ?_⟩
  · rw [lo_eq, hi_eq, h n]; exact ⟨rfl, rfl⟩
  · rw [lo_eq, hi_eq]; exact same

theorem setLoHi_eq (run : exec i s = complete (·.setLoHi r) s) (h : r = (lo, hi)) :
    ∃ t, exec i s = .next t ∧ Advanced s t none ∧ t.lo = lo ∧ t.hi = hi ∧
      SameButGpr { s with lo := t.lo, hi := t.hi } t := by
  obtain ⟨t, next, advanced, values, same⟩ := setLoHi_spec (normal := True) run fun _ => h
  exact ⟨t, next, advanced, (values trivial).1, (values trivial).2, same⟩

end

/-- Settles O34: a move to HI or LO writes both, the other one with what it holds. -/
theorem hiLoMoves : Obligations.HiLoMoves := fun s r =>
  ⟨writeBack_spec .., writeBack_spec ..,
    completeLoHi_spec (f := (·.setHi (s.readGpr r))) (r := (s.lo, s.readGpr r))
      (by simp [State.setHi, State.setLoHi]),
    completeLoHi_spec (f := (·.setLo (s.readGpr r))) (r := (s.readGpr r, s.hi))
      (by simp [State.setLo, State.setLoHi])⟩

/-! ### Products (R251, R252, R255, R256) -/

/-- A field of the bits of `p` is `p` divided by the power of two the field starts at, rounded down. -/
theorem extractLsb'_ofInt {w k n : Nat} (h : k + n ≤ w) (p : Int) :
    (BitVec.ofInt w p).extractLsb' k n = BitVec.ofInt n (p / 2 ^ k) := by
  obtain ⟨m, rfl⟩ := Nat.exists_eq_add_of_le h
  have bits : ((BitVec.ofInt (k + n + m) p).toNat : Int) = p % 2 ^ (k + n + m) := by
    rw [BitVec.toNat_ofInt, Int.toNat_of_nonneg (Int.emod_nonneg _ (by positivity)), Nat.cast_pow,
      Nat.cast_ofNat]
  have whole : p = p % 2 ^ (k + n + m) + 2 ^ k * ((2 ^ n : Nat) * (2 ^ m * (p / 2 ^ (k + n + m)))) := by
    rw [Nat.cast_pow, Nat.cast_ofNat, ← mul_assoc, ← mul_assoc, ← pow_add, ← pow_add,
      Int.emod_add_mul_ediv]
  have field : p / 2 ^ k =
      p % 2 ^ (k + n + m) / 2 ^ k + (2 ^ n : Nat) * (2 ^ m * (p / 2 ^ (k + n + m))) := by
    rw [← Int.add_mul_ediv_left _ _ (by positivity), ← whole]
  apply BitVec.eq_of_toInt_eq
  rw [BitVec.toInt_extractLsb', BitVec.toInt_ofInt, field, Int.add_mul_bmod_self_left, ← bits,
    Nat.shiftRight_eq_div_pow, Int.natCast_ediv, Nat.cast_pow, Nat.cast_ofNat]

theorem productWord_ofInt (p : Int) : productWord (BitVec.ofInt 64 p) =
    (sext32 (BitVec.ofInt 32 (p / 2 ^ 0)), sext32 (BitVec.ofInt 32 (p / 2 ^ 32))) := by
  rw [productWord, extractLsb'_ofInt (by decide), extractLsb'_ofInt (by decide)]

theorem productDouble_ofInt (p : Int) :
    productDouble (BitVec.ofInt 128 p) = (BitVec.ofInt 64 p, BitVec.ofInt 64 (p / 2 ^ 64)) := by
  rw [productDouble, extractLsb'_ofInt (by decide), extractLsb'_ofInt (by decide), pow_zero, Int.ediv_one]

theorem productWord_ofNat (n : Nat) : productWord (BitVec.ofNat 64 n) =
    (sext32 (BitVec.ofInt 32 (n / 2 ^ 0)), sext32 (BitVec.ofInt 32 (n / 2 ^ 32))) := by
  rw [← BitVec.ofInt_natCast, productWord_ofInt]

theorem productDouble_ofNat (n : Nat) :
    productDouble (BitVec.ofNat 128 n) = (BitVec.ofNat 64 n, BitVec.ofNat 64 (n / 2 ^ 64)) := by
  rw [← BitVec.ofInt_natCast, productDouble_ofInt, BitVec.ofInt_natCast, ← BitVec.ofInt_natCast 64 (n / _),
    Int.natCast_ediv, Nat.cast_pow, Nat.cast_ofNat]

/-- Settles O32: LO and HI are two fields of the bits of the exact product, signed or not. -/
theorem multiply : Obligations.Multiply := by
  intro s rs rt
  simp only [← lowWord_eq]
  exact ⟨setLoHi_eq rfl (productWord_ofInt _), setLoHi_eq rfl (productWord_ofNat _), fun h64 =>
    ⟨setLoHi_eq (withOps64_of h64 _) (productDouble_ofInt _),
      setLoHi_eq (withOps64_of h64 _) (productDouble_ofNat _)⟩⟩

/-! ### Quotients and remainders (R253, R254, R257, R258) -/

/-- The corner cases by the numbers the operands are (R250(e)). -/
theorem isDivCorner_eq_false {n : Nat} (hn : 0 < n) {a b : BitVec n} :
    isDivCorner a b = false ↔ b ≠ 0 ∧ ¬ (a.toInt = -2 ^ (n - 1) ∧ b.toInt = -1) := by
  have least : a.toInt = -2 ^ (n - 1) ↔ a = BitVec.intMin n := by
    rw [← BitVec.toInt_intMin_of_pos hn, BitVec.toInt_inj]
  have minusOne : b.toInt = -1 ↔ b = BitVec.allOnes n := by
    rw [← BitVec.toInt_inj, BitVec.toInt_allOnes, if_pos hn]
  simp [isDivCorner, least, minusOne]

theorem divWord_of {c : DivCorner} {a b : BitVec 32}
    (h : b ≠ 0 ∧ ¬ (a.toInt = -2 ^ 31 ∧ b.toInt = -1)) : divWord c a b =
      (sext32 (BitVec.ofInt 32 (a.toInt.tdiv b.toInt)), sext32 (BitVec.ofInt 32 (a.toInt.tmod b.toInt))) := by
  rw [divWord, (isDivCorner_eq_false (by decide)).2 h]; rfl

theorem divWordU_of {c : DivCorner} {a b : BitVec 32} (h : b ≠ 0) : divWordU c a b =
    (sext32 (BitVec.ofInt 32 (a.toNat / b.toNat : Nat)),
      sext32 (BitVec.ofInt 32 (a.toNat % b.toNat : Nat))) := by
  rw [divWordU, if_neg h, BitVec.udiv_def, BitVec.umod_def, BitVec.ofInt_natCast, BitVec.ofInt_natCast]

theorem divDouble_of {c : DivCorner} {a b : Word}
    (h : b ≠ 0 ∧ ¬ (a.toInt = -2 ^ 63 ∧ b.toInt = -1)) : divDouble c a b =
      (BitVec.ofInt 64 (a.toInt.tdiv b.toInt), BitVec.ofInt 64 (a.toInt.tmod b.toInt)) := by
  rw [divDouble, (isDivCorner_eq_false (by decide)).2 h]; rfl

theorem divDoubleU_of {c : DivCorner} {a b : Word} (h : b ≠ 0) : divDoubleU c a b =
    (BitVec.ofNat 64 (a.toNat / b.toNat), BitVec.ofNat 64 (a.toNat % b.toNat)) := by
  rw [divDoubleU, if_neg h, BitVec.udiv_def, BitVec.umod_def]

/-- Settles O33: each form writes some LO and HI, and outside its corner cases they are the quotient and
the remainder. -/
theorem divide : Obligations.Divide := by
  intro s rs rt
  simp only [← lowWord_eq]
  exact ⟨setLoHi_spec rfl divWord_of, setLoHi_spec rfl divWordU_of, fun h64 =>
    ⟨setLoHi_spec (withOps64_of h64 _) divDouble_of, setLoHi_spec (withOps64_of h64 _) divDoubleU_of⟩⟩

end Sys2Proof.Machine
end

section
/-! PROOFS. Jumps and branches: the target of a taken branch as an exact number, the conditions in the terms
of the statements, and how a plain and a likely branch end. -/

namespace Sys2Proof.Machine

/-! ### Jumps (R271 to R274) -/

/-- Settles O35: each jump is one call of `Branch`, with or without a link. -/
theorem jumps : Obligations.Jumps := fun _ _ _ _ =>
  ⟨completeBranch_spec .., completeLink_spec .., completeBranch_spec .., completeLink_spec ..⟩

/-! ### Targets and conditions (R270(e), R270(g)) -/

/-- Two zero bits below a signed offset multiply it by four. -/
theorem branchTarget_eq (pc : Word) (imm : BitVec 16) :
    branchTarget pc imm = pc + 4 + BitVec.ofInt 64 (4 * imm.toInt) := by
  have scaled : (imm ++ 0#2).toInt = 4 * imm.toInt := by
    rw [BitVec.toInt_append_zero]; omega
  rw [branchTarget, BitVec.signExtend, scaled]

section
variable {v w : Word}

theorem beq_iff_toInt_eq : (v == w) = true ↔ v.toInt = w.toInt := by rw [beq_iff_eq, BitVec.toInt_inj]

theorem bne_iff_toInt_ne : (v != w) = true ↔ v.toInt ≠ w.toInt := by rw [bne_iff_ne, Ne, Ne, BitVec.toInt_inj]

theorem isNegative_iff : isNegative v = true ↔ v.toInt < 0 := by
  rw [isNegative, BitVec.slt_iff_toInt_lt]; rfl

theorem not_isNegative_iff : (!isNegative v) = true ↔ 0 ≤ v.toInt := by
  rw [Bool.not_eq_true', ← Bool.not_eq_true, isNegative_iff, Int.not_lt]

theorem isNotPositive_iff : isNotPositive v = true ↔ v.toInt ≤ 0 := by
  rw [isNotPositive, BitVec.sle_iff_toInt_le]; rfl

theorem not_isNotPositive_iff : (!isNotPositive v) = true ↔ 0 < v.toInt := by
  rw [Bool.not_eq_true', ← Bool.not_eq_true, isNotPositive_iff, Int.not_le]

end

/-! ### How a conditional branch ends (R270(c), R270(d)) -/

section
variable {s : State} {taken : Bool} {f : State → State} {link : Option Reg} {imm : BitVec 16} {c : Prop}

/-- Either target is given to `Branch`, and the link `f` is written before either. -/
theorem condBranch_spec
    (branch : ∀ target, ∃ t, completeBranch f target s = .next t ∧ Branched s t link target)
    (cond : taken = true ↔ c) :
    (c → ∃ t, condBranch taken f imm s = .next t ∧
      Branched s t link (s.pc + 4 + BitVec.ofInt 64 (4 * imm.toInt))) ∧
    (¬ c → ∃ t, condBranch taken f imm s = .next t ∧ Branched s t link (s.pc + 8)) := by
  rw [← cond, ← branchTarget_eq, condBranch]
  refine ⟨fun yes => ?_, fun no => ?_⟩
  · rw [if_pos yes]; exact branch _
  · rw [if_neg no]; exact branch _

/-- The target is given to `Branch` or the slot is nullified, and the link `f` is written before either. -/
theorem condBranchLikely_spec
    (branch : ∀ target, ∃ t, completeBranch f target s = .next t ∧ Branched s t link target)
    (nullify : ∃ t, completeNullify f s = .next t ∧ Nullified s t link)
    (cond : taken = true ↔ c) :
    (c → ∃ t, condBranchLikely taken f imm s = .next t ∧
      Branched s t link (s.pc + 4 + BitVec.ofInt 64 (4 * imm.toInt))) ∧
    (¬ c → ∃ t, condBranchLikely taken f imm s = .next t ∧ Nullified s t link) := by
  rw [← cond, ← branchTarget_eq, condBranchLikely]
  refine ⟨fun yes => ?_, fun no => ?_⟩
  · rw [if_pos yes]; exact branch _
  · rw [if_neg no]; exact nullify

end

/-- Settles O36: one form of ending for all eight branches, each with its condition. -/
theorem conditionalBranches : Obligations.ConditionalBranches := by
  intro s rs rt imm
  have plain := completeBranch_spec (s := s)
  have linking := completeLink_spec 31 (s := s)
  exact ⟨condBranch_spec plain beq_iff_toInt_eq, condBranch_spec plain bne_iff_toInt_ne,
    condBranch_spec plain isNotPositive_iff, condBranch_spec plain not_isNotPositive_iff,
    condBranch_spec plain isNegative_iff, condBranch_spec plain not_isNegative_iff,
    condBranch_spec linking isNegative_iff, condBranch_spec linking not_isNegative_iff⟩

/-- Settles O37: the same conditions, the slot nullified where a plain form goes to pc + 8. -/
theorem likelyBranches : Obligations.LikelyBranches := by
  intro s rs rt imm
  have plain {taken c} := condBranchLikely_spec (taken := taken) (imm := imm) (c := c)
    (completeBranch_spec (s := s)) (completeNullify_spec s)
  have linking {taken c} := condBranchLikely_spec (taken := taken) (imm := imm) (c := c)
    (completeLink_spec 31 (s := s)) (completeNullifyLink_spec 31 s)
  exact ⟨plain beq_iff_toInt_eq, plain bne_iff_toInt_ne,
    plain isNotPositive_iff, plain not_isNotPositive_iff, plain isNegative_iff, plain not_isNegative_iff,
    linking isNegative_iff, linking not_isNegative_iff⟩

end Sys2Proof.Machine
end

section
/-! PROOFS. Loads and stores: the bytes of shifted, extended and merged values, how an access ends at the
address it maps to, and the faults it raises where it does not. -/

namespace Sys2Proof.Machine

/-! ### Bytes of a value (R130, R142) -/

theorem getLsbD_byteOf (v : Word) (n i : Nat) {j : Nat} (hj : j < 8) :
    (Memory.byteOf v n i).getLsbD j = v.getLsbD (8 * (n - 1 - i) + j) := by
  simp [Memory.byteOf, hj]

/-- Two bytes are equal by their bits, wherever they stand. -/
theorem byteOf_ext {v w : Word} {n m i k : Nat}
    (h : ∀ j < 8, v.getLsbD (8 * (n - 1 - i) + j) = w.getLsbD (8 * (m - 1 - k) + j)) :
    Memory.byteOf v n i = Memory.byteOf w m k :=
  BitVec.eq_of_getLsbD_eq fun j hj => by rw [getLsbD_byteOf v n i hj, getLsbD_byteOf w m k hj, h j hj]

/-- The bytes of a shorter value that ends where a longer one does. -/
theorem byteOf_shorter (v : Word) {n m i j : Nat} (h : n - 1 - i = m - 1 - j) :
    Memory.byteOf v n i = Memory.byteOf v m j := byteOf_ext fun _ _ => by rw [h]

/-- A right shift drops the last `b` bytes. -/
theorem byteOf_ushiftRight (v : Word) {n b k : Nat} (hk : k < n - b) :
    Memory.byteOf (v >>> (8 * b)) (n - b) k = Memory.byteOf v n k := by
  refine byteOf_ext fun j hj => ?_
  rw [BitVec.getLsbD_ushiftRight]
  congr 1
  omega

/-- The bytes of a word depend on its low half alone. -/
theorem byteOf_low (v : Word) {k : Nat} (hk : k < 4) :
    Memory.byteOf ((v.setWidth 32).setWidth 64) 4 k = Memory.byteOf v 4 k := by
  refine byteOf_ext fun j hj => ?_
  have word : 8 * (4 - 1 - k) + j < 32 := by omega
  have double : 8 * (4 - 1 - k) + j < 64 := by omega
  rw [BitVec.getLsbD_setWidth, BitVec.getLsbD_setWidth]
  simp [word, double]

/-- A value that was zero-extended, sign-extended. -/
theorem sextBytes_setWidth {n : Nat} (w : BitVec (8 * n)) (hn : n ≤ 8) :
    sextBytes n (w.setWidth 64) = w.signExtend 64 := by
  rw [sextBytes, BitVec.setWidth_setWidth_of_le _ (by omega), BitVec.setWidth_eq]

/-- The sign-extended value of the bytes read. -/
theorem sextBytes_join {byte : Nat → Byte} {n : Nat} {w : BitVec (8 * n)} (hn : n ≤ 8)
    (h : Memory.join byte n = w.setWidth 64) : sextBytes n (Memory.join byte n) = w.signExtend 64 :=
  h ▸ sextBytes_setWidth w hn

/-! ### Merged values (R308 to R311) -/

theorem getLsbD_lowOnes (k : Nat) {i : Nat} (hi : i < 64) : (lowOnes k).getLsbD i = decide (i < k) := by
  have shifted : i - k < 64 := by omega
  rw [lowOnes, BitVec.getLsbD_not, BitVec.getLsbD_shiftLeft, BitVec.getLsbD_allOnes]
  simp [hi, shifted]

theorem getLsbD_mergeLeft (b : Nat) (old m : Word) {i : Nat} (hi : i < 64) :
    (mergeLeft b old m).getLsbD i = if i < 8 * b then old.getLsbD i else m.getLsbD (i - 8 * b) := by
  rw [mergeLeft, BitVec.getLsbD_or, BitVec.getLsbD_and, getLsbD_lowOnes _ hi, BitVec.getLsbD_shiftLeft]
  by_cases kept : i < 8 * b <;> simp [kept, hi]

/-- A read of `l` bytes has no bits above them. -/
theorem getLsbD_mergeRight {l : Nat} (hl : l ≤ 8) (old : Word) (byte : Nat → Byte) {i : Nat} (hi : i < 64) :
    (mergeRight l old (Memory.join byte l)).getLsbD i =
      if i < 8 * l then (Memory.join byte l).getLsbD i else old.getLsbD i := by
  rw [mergeRight, BitVec.getLsbD_or, BitVec.getLsbD_and, BitVec.getLsbD_not, getLsbD_lowOnes _ hi,
    getLsbD_join byte l hl]
  by_cases loaded : i < 8 * l <;> simp [loaded, hi]

section
variable {byte : Nat → Byte} {n k : Nat} (old : Word) (hn : n ≤ 8) (hk : k < n)
include hn hk

/-- The bytes read come first, the last `b` bytes are the old ones. -/
theorem byteOf_mergeLeft {b : Nat} :
    Memory.byteOf (mergeLeft b old (Memory.join byte (n - b))) n k =
      if k < n - b then byte k else Memory.byteOf old n k := by
  by_cases loaded : k < n - b
  · rw [if_pos loaded, ← byteOf_join byte (n - b) (by omega) k loaded]
    refine byteOf_ext fun j hj => ?_
    rw [getLsbD_mergeLeft b old _ (by omega), if_neg (by omega)]
    congr 1
    omega
  · rw [if_neg loaded]
    refine byteOf_ext fun j hj => ?_
    rw [getLsbD_mergeLeft b old _ (by omega), if_pos (by omega)]

/-- The last `b + 1` bytes are the ones read, those before them are the old ones. -/
theorem byteOf_mergeRight {b : Nat} (hb : b < n) :
    Memory.byteOf (mergeRight (b + 1) old (Memory.join byte (b + 1))) n k =
      if k < n - 1 - b then Memory.byteOf old n k else byte (k - (n - 1 - b)) := by
  by_cases kept : k < n - 1 - b
  · rw [if_pos kept]
    refine byteOf_ext fun j hj => ?_
    rw [getLsbD_mergeRight (by omega) old byte (by omega), if_neg (by omega)]
  · rw [if_neg kept, ← byteOf_join byte (b + 1) (by omega) _ (by omega)]
    refine byteOf_ext fun j hj => ?_
    rw [getLsbD_mergeRight (by omega) old byte (by omega), if_pos (by omega)]
    congr 1
    omega

end

/-- Where the value is used, the merge source is the register the pending load leaves (R511(c)). -/
theorem mergeSource_eq {s : State} {r : Reg} (hr : r ≠ 0) : s.mergeSource r = s.committed r := by
  refine Eq.symm ((if_neg hr).trans ?_)
  unfold State.mergeSource
  cases s.ld <;> rfl

/-! ### How a load ends (R300(e), R301 to R307, R330, R331) -/

section
variable {s : State} {rt base : Reg} {imm : BitVec 16} {pa : PAddr} {attr : CacheAttr} {n : Nat}
  {ext : Word → Word} {v : Word} {o : Out}

/-- The value a load leaves for register 0 does not matter (R21). -/
theorem loadBack_of {w : Word} (run : o = loadBack rt w s) (h : rt ≠ 0 → w = v) :
    ∃ t, o = .next t ∧ Loaded s t rt v ∧ SameButGpr s t := by
  obtain ⟨t, next, loaded, same⟩ := loadBack_spec rt w s
  refine ⟨t, run.trans next, { loaded with ld := loaded.ld.trans ?_ }, same⟩
  by_cases zero : rt = 0
  · rw [if_pos zero, if_pos zero]
  · rw [h zero]

/-- A load that merges into what the pending load leaves in its register. -/
theorem mergeBack_of (m : Word → Word) (run : o = loadBack rt (m (s.mergeSource rt)) s) :
    ∃ t, o = .next t ∧ Loaded s t rt (m (s.committed rt)) ∧ SameButGpr s t :=
  loadBack_of run fun hr => by rw [mergeSource_eq hr]

variable (aligned : (s.effectiveAddress base imm).toNat % n = 0)
  (maps : s.translate (s.effectiveAddress base imm) .load = .physical pa attr)
include aligned maps

theorem loadGpr_spec (run : o = loadGpr n ext rt base imm s)
    (value : ext (Memory.join (s.busByte false pa n) n) = v) :
    ∃ t, o = .next t ∧ Loaded s t rt v ∧ SameButGpr s t := by
  rw [loadGpr, loadVirt, withAligned_of aligned maps] at run
  exact loadBack_of run fun _ => value

/-- LLAddr holds the physical address without its four low bits (R68). -/
theorem loadLinked_spec (run : o = loadLinked n ext rt base imm s)
    (value : ext (Memory.join (s.busByte false pa n) n) = v) :
    ∃ t, o = .next t ∧ Loaded s t rt v ∧ t.llbit = true ∧ t.cp0.llAddr.toNat = pa.toNat / 16 ∧
      SameButGpr { s with llbit := t.llbit, cp0 := { s.cp0 with llAddr := t.cp0.llAddr } } t := by
  have link : (0#4 ++ pa.extractLsb' 4 28).toNat = pa.toNat / 16 := by
    rw [BitVec.toNat_append, BitVec.extractLsb'_toNat]
    simp only [BitVec.toNat_ofNat, Nat.shiftRight_eq_div_pow, Nat.zero_mod, Nat.zero_shiftLeft,
      Nat.zero_or]
    omega
  rw [run, loadLinked, withAligned_of aligned maps, complete_next, State.readBus, value, advance_eq]
  refine ⟨_, rfl, ⟨fun r => readGpr_commitLoad s r, sequel_congr (commitLoad_pc s) (commitLoad_br s), rfl,
    rfl⟩, rfl, link, ?_⟩
  simp [SameButGpr, State.setLink, State.delayLoad]

end

/-- Settles O38: each load is one read of `n` bytes, extended. -/
theorem alignedLoads : Obligations.AlignedLoads := by
  intro s rt base imm pa attr ea b gives maps
  exact ⟨loadGpr_spec (Nat.mod_one _) maps rfl (sextBytes_join (by decide) (join_one _)),
    loadGpr_spec (Nat.mod_one _) maps rfl (join_one _),
    fun aligned => ⟨loadGpr_spec aligned maps rfl (sextBytes_join (by decide) (join_two _)),
      loadGpr_spec aligned maps rfl (join_two _)⟩,
    fun aligned => ⟨loadGpr_spec aligned maps rfl (sextBytes_join (by decide) (join_four _)),
      fun h64 => loadGpr_spec aligned maps (withOps64_of h64 _) (join_four _)⟩,
    fun aligned h64 => loadGpr_spec aligned maps (withOps64_of h64 _)
      ((join_eight _).trans (BitVec.setWidth_eq _))⟩

/-! ### How a store ends (R300(e), R312 to R319, R332, R333) -/

section
variable {s : State} {rt base : Reg} {imm : BitVec 16} {pa : PAddr} {attr : CacheAttr} {n : Nat}
  {o : Out} {v : Word} {b : Nat → Byte}

theorem StoredBytes.congr {t : State} {b' : Nat → Byte} (h : StoredBytes s t pa n b)
    (bytes : ∀ i < n, b i = b' i) : StoredBytes s t pa n b' :=
  { h with held := fun ram i hi => (h.held ram i hi).trans (congrArg some (bytes i hi)) }

/-- A store's writeback, with the bytes named as the caller knows them. -/
theorem completeStore_bytes (run : o = complete (·.store pa n v) s) (hn : n ≤ 8)
    (bytes : ∀ i < n, Memory.byteOf v n i = b i) :
    ∃ t, o = .next t ∧ Advanced s t none ∧ SameButGpr { s with mem := t.mem } t ∧
      StoredBytes s t pa n b := by
  obtain ⟨t, next, advanced, stored, same⟩ := completeStore_spec pa n hn v s
  exact ⟨t, run.trans next, advanced, same, stored.congr bytes⟩

variable (aligned : (s.effectiveAddress base imm).toNat % n = 0) (hn : n ≤ 8)
  (maps : s.translate (s.effectiveAddress base imm) .store = .physical pa attr)
include aligned hn maps

theorem storeGpr_spec (run : o = storeGpr n rt base imm s) :
    ∃ t, o = .next t ∧ Advanced s t none ∧ SameButGpr { s with mem := t.mem } t ∧
      StoredBytes s t pa n (Memory.byteOf (s.readGpr rt) n) := by
  rw [storeGpr, storeVirt, withAligned_of aligned maps] at run
  exact completeStore_bytes run hn fun _ _ => rfl

/-- LLbit decides whether the bus is written; the register gets it either way. -/
theorem storeConditional_spec (run : o = storeConditional n rt base imm s) :
    ∃ t, o = .next t ∧ Advanced s t (some (rt, if s.llbit then 1 else 0)) ∧
      SameButGpr { s with mem := t.mem } t ∧
      (s.llbit = true → StoredBytes s t pa n (Memory.byteOf (s.readGpr rt) n)) ∧
      (s.llbit = false → t.mem = s.mem) := by
  rw [run, storeConditional, withAligned_of aligned maps, complete_next]
  cases link : s.llbit
  · refine ⟨_, rfl, advanced_of (by simp) (by simp) (by simp) fun r => ?_, ?_, nofun, fun _ => ?_⟩
    · simp [readGpr_setGpr, ofFlag]
    · simp [SameButGpr, advance_eq, link]
    · simp [advance_eq]
  · refine ⟨_, rfl, advanced_of (by simp [State.store]) (by simp [State.store]) (by simp [State.store])
      fun r => ?_, ?_, fun _ => storedBytes_of hn ?_, nofun⟩
    · rw [if_pos rfl, readGpr_setGpr]
      exact congrArg (ite _ _) (readGpr_commitLoad s r)
    · simp [SameButGpr, advance_eq, State.store, link]
    · simp [advance_eq, State.store]

end

/-- Settles O40: each store writes the last `n` bytes of the register. -/
theorem alignedStores : Obligations.AlignedStores := by
  intro s rt base imm pa attr ea v gives maps
  exact ⟨storeGpr_spec (Nat.mod_one _) (by decide) maps rfl,
    fun aligned => storeGpr_spec aligned (by decide) maps rfl,
    fun aligned => storeGpr_spec aligned (by decide) maps rfl,
    fun aligned h64 => storeGpr_spec aligned (by decide) maps (withOps64_of h64 _)⟩

/-! ### Partial accesses (R308 to R311, R316 to R319) -/

theorem byteInWord_lt (ea : Word) : byteInWord ea < 4 := BitVec.isLt _

theorem byteInDouble_lt (ea : Word) : byteInDouble ea < 8 := BitVec.isLt _

/-- Settles O39: the merged value byte by byte, its low half where the load is of a word. -/
theorem partialLoads : Obligations.PartialLoads := by
  intro s rt base imm pa attr
  simp only [← byteInWord_eq, ← byteInDouble_eq]
  intro maps
  exact ⟨⟨_, mergeBack_of (fun old => sextBytes 4 (mergeLeft _ old _)) (withTranslation_of maps _),
      fun k hk => (byteOf_low _ hk).trans (byteOf_mergeLeft _ (by decide) hk)⟩,
    ⟨_, mergeBack_of (fun old => sextBytes 4 (mergeRight _ old _)) (withTranslation_of maps _),
      fun k hk => (byteOf_low _ hk).trans (byteOf_mergeRight _ (by decide) hk (byteInWord_lt _))⟩,
    fun h64 => ⟨⟨_, mergeBack_of (fun old => mergeLeft _ old _)
          ((withOps64_of h64 _).trans (withTranslation_of maps _)),
        fun k hk => byteOf_mergeLeft _ (by decide) hk⟩,
      ⟨_, mergeBack_of (fun old => mergeRight _ old _)
          ((withOps64_of h64 _).trans (withTranslation_of maps _)),
        fun k hk => byteOf_mergeRight _ (by decide) hk (byteInDouble_lt _)⟩⟩⟩

/-- Settles O41: the bytes of the register from its left or its right end. -/
theorem partialStores : Obligations.PartialStores := by
  intro s rt base imm pa attr
  simp only [← byteInWord_eq, ← byteInDouble_eq]
  intro maps
  have word := byteInWord_lt (s.readGpr base + imm.signExtend 64)
  have double := byteInDouble_lt (s.readGpr base + imm.signExtend 64)
  refine ⟨completeStore_bytes (withTranslation_of maps _) (by omega) fun k hk => ?_,
    completeStore_bytes (withTranslation_of maps _) (by omega) fun k hk => byteOf_shorter _ (by omega),
    fun h64 => ⟨completeStore_bytes ((withOps64_of h64 _).trans (withTranslation_of maps _)) (by omega)
        fun k hk => byteOf_ushiftRight _ hk,
      completeStore_bytes ((withOps64_of h64 _).trans (withTranslation_of maps _)) (by omega)
        fun k hk => byteOf_shorter _ (by omega)⟩⟩
  rw [lowWord_eq]
  exact (byteOf_ushiftRight _ hk).trans (byteOf_low _ (by omega))

/-! ### Faults of an access (R131, R132, R300(c)) -/

section
variable {s : State} {n : Nat} {intent : Intent} {va : Word} {o : Out} {k : PAddr → Out}

theorem withAligned_faults (run : o = withAligned intent n va s k) :
    (va.toNat % n ≠ 0 → ∃ t, o = .next t ∧ Raised s t (.addressError intent) 0 (some va)) ∧
    (va.toNat % n = 0 → ∀ kind, s.translate va intent = .raises kind →
      ∃ t, o = .next t ∧ Raised s t kind 0 (some va)) := by
  refine ⟨fun misaligned => ?_, fun aligned kind raises => ?_⟩
  · rw [run, withAligned_misaligned misaligned]; exact raiseAt_spec ..
  · rw [run, withAligned_raises aligned raises]; exact raiseAt_spec ..

/-- No alignment is asked: every address is a multiple of 1. -/
theorem withTranslation_faults (run : o = withTranslation intent va s k) :
    (va.toNat % 1 ≠ 0 → ∃ t, o = .next t ∧ Raised s t (.addressError intent) 0 (some va)) ∧
    (va.toNat % 1 = 0 → ∀ kind, s.translate va intent = .raises kind →
      ∃ t, o = .next t ∧ Raised s t kind 0 (some va)) :=
  withAligned_faults (run.trans (if_pos (Nat.mod_one _)).symm)

end

/-- Settles O42: the aligned forms are one shape with their size, the partial ones with size 1. -/
theorem accessFaults : Obligations.AccessFaults := fun _ _ _ _ =>
  ⟨withAligned_faults rfl, withAligned_faults rfl, withAligned_faults rfl, withAligned_faults rfl,
    withAligned_faults rfl, withAligned_faults rfl, withAligned_faults rfl,
    withAligned_faults rfl, withAligned_faults rfl, withAligned_faults rfl,
    withTranslation_faults rfl, withTranslation_faults rfl, withTranslation_faults rfl,
    withTranslation_faults rfl,
    fun h64 => ⟨withAligned_faults (withOps64_of h64 _), withAligned_faults (withOps64_of h64 _),
      withAligned_faults (withOps64_of h64 _), withAligned_faults (withOps64_of h64 _),
      withAligned_faults (withOps64_of h64 _), withTranslation_faults (withOps64_of h64 _),
      withTranslation_faults (withOps64_of h64 _), withTranslation_faults (withOps64_of h64 _),
      withTranslation_faults (withOps64_of h64 _)⟩,
    fun h1 => ⟨withAligned_faults (withCop1_of h1 _), withAligned_faults (withCop1_of h1 _),
      withAligned_faults (withCop1_of h1 _), withAligned_faults (withCop1_of h1 _)⟩⟩

end Sys2Proof.Machine

namespace Sys2Proof
open Machine

/-- Settles O43: one aligned read each, and the link. (In `Sys2Proof.Machine` the name is the model's own
shape of LL and LLD.) -/
theorem loadLinked : Obligations.LoadLinked := by
  intro s rt base imm pa attr ea b gives maps
  exact ⟨fun aligned => loadLinked_spec aligned maps rfl (sextBytes_join (by decide) (join_four _)),
    fun aligned h64 => loadLinked_spec aligned maps (withOps64_of h64 _)
      ((join_eight _).trans (BitVec.setWidth_eq _))⟩

/-- Settles O44: by LLbit, a store or none. (In `Sys2Proof.Machine` the name is the model's own shape of SC
and SCD.) -/
theorem storeConditional : Obligations.StoreConditional := by
  intro s rt base imm pa attr ea gives maps
  exact ⟨fun aligned => storeConditional_spec aligned (by decide) maps rfl,
    fun aligned h64 => storeConditional_spec aligned (by decide) maps (withOps64_of h64 _)⟩

end Sys2Proof
end

section
/-! PROOFS. A value stored and loaded through an unaligned address: translation keeps the page offset, so the
left and the right part of an access meet in memory, and the parts together are the access. -/

namespace Sys2Proof.Machine

/-! ### The offset of a translated address (R120, R122) -/

theorem access_offset {e : TlbEntry} {intent : Intent} {va : Word} {pa : PAddr} {attr : CacheAttr}
    (h : e.access intent va = .physical pa attr) {k : Nat} (hk : k < 12) :
    pa.getLsbD k = va.getLsbD k := by
  unfold TlbEntry.access at h
  generalize (if e.oddPage va then (e.pfn1, e.c1, e.d1, e.v1) else (e.pfn0, e.c0, e.d0, e.v0)) = half at h
  dsimp only at h
  split_ifs at h
  cases h
  rw [physAddr_getLsbD e _ va (by omega), if_pos (.inl hk)]

/-- No page is smaller than 4096 bytes, and a direct window keeps more. -/
theorem translate_offset {s : State} {intent : Intent} {va : Word} {pa : PAddr} {attr : CacheAttr}
    (h : s.translate va intent = .physical pa attr) : pa.toNat % 4096 = va.toNat % 4096 := by
  have bits {k : Nat} (hk : k < 12) : pa.getLsbD k = va.getLsbD k := by
    have direct : (directAddr va).getLsbD k = va.getLsbD k := by
      have low : k < 29 := by omega
      rw [directAddr, BitVec.getLsbD_append, BitVec.getLsbD_extractLsb']
      simp [low]
    unfold State.translate at h
    split_ifs at h
    split at h
    · cases h
    · cases h; exact direct
    · cases h; exact direct
    · split at h
      · cases h
      · exact access_offset h hk
      · cases h
  have low : pa.setWidth 12 = va.setWidth 12 :=
    BitVec.eq_of_getLsbD_eq fun k hk => by simp [hk, bits hk]
  simpa using congrArg BitVec.toNat low

theorem translate_mod {s : State} {intent : Intent} {va : Word} {pa : PAddr} {attr : CacheAttr} {n : Nat}
    (hn : n = 4 ∨ n = 8) (h : s.translate va intent = .physical pa attr) : pa.toNat % n = va.toNat % n := by
  have offset := translate_offset h
  obtain rfl | rfl := hn <;> omega

/-! ### The two parts of an access (R300(h)) -/

/-- The bits a mask clears and the bits it keeps add up to the value. -/
theorem and_not_add_and (x m : PAddr) : (x &&& ~~~m) + (x &&& m) = x := by
  have disjoint : (x &&& ~~~m) &&& (x &&& m) = 0#32 := BitVec.eq_of_getElem_eq fun i hi => by
    rw [BitVec.getElem_and, BitVec.getElem_and, BitVec.getElem_and, BitVec.getElem_not]
    cases m[i] <;> simp
  rw [BitVec.add_eq_or_of_and_eq_zero _ _ disjoint]
  refine BitVec.eq_of_getElem_eq fun i hi => ?_
  rw [BitVec.getElem_or, BitVec.getElem_and, BitVec.getElem_and, BitVec.getElem_not]
  cases m[i] <;> simp

/-- An aligned address and the offset cleared from it. -/
theorem aligned_add_offset (x : PAddr) (j : Nat) :
    (x &&& ~~~BitVec.ofNat 32 (2 ^ j - 1)) + BitVec.ofNat 32 (x.toNat % 2 ^ j) = x := by
  rw [← Nat.and_two_pow_sub_one_eq_mod, BitVec.ofNat_and, BitVec.ofNat_toNat, BitVec.setWidth_eq,
    and_not_add_and]

/-- The `n` bytes at `pa` are the left part, `n - b` bytes at `pa`, with the right part, `e + 1` bytes that
start at `p`. -/
structure Parts (n b e : Nat) (pa p : PAddr) : Prop where
  size  : n ≤ 8
  right : e < n
  meet  : n - 1 - e ≤ n - b
  addr  : ∀ i ≤ e, Memory.addr p i = Memory.addr pa (n - 1 - e + i)

theorem parts_of {n : Nat} (hn : n = 4 ∨ n = 8) (pa : PAddr) :
    Parts n (pa.toNat % n) ((pa + BitVec.ofNat 32 (n - 1)).toNat % n) pa
      ((pa + BitVec.ofNat 32 (n - 1)) &&& ~~~BitVec.ofNat 32 (n - 1)) := by
  generalize last : pa + BitVec.ofNat 32 (n - 1) = q
  have start : (q &&& ~~~BitVec.ofNat 32 (n - 1)) + BitVec.ofNat 32 (q.toNat % n) = q := by
    obtain rfl | rfl := hn
    · exact aligned_add_offset q 2
    · exact aligned_add_offset q 3
  generalize (q &&& ~~~BitVec.ofNat 32 (n - 1)) = p at start
  have right : q.toNat % n < n := Nat.mod_lt _ (by omega)
  refine ⟨by omega, right, ?_, fun i hi => ?_⟩
  · rw [← last, BitVec.toNat_add, BitVec.toNat_ofNat]
    obtain rfl | rfl := hn <;> omega
  · have split : BitVec.ofNat 32 (n - 1) =
        BitVec.ofNat 32 (n - 1 - q.toNat % n) + BitVec.ofNat 32 (q.toNat % n) := by
      rw [← BitVec.ofNat_add, Nat.sub_add_cancel (by omega)]
    have left : p = pa + BitVec.ofNat 32 (n - 1 - q.toNat % n) := by
      rw [← BitVec.add_left_inj (BitVec.ofNat 32 (q.toNat % n)), start, BitVec.add_assoc, ← split, last]
    rw [Memory.addr, Memory.addr, left, BitVec.ofNat_add, BitVec.add_assoc]

section
variable {n b e : Nat} {pa p : PAddr} {s t u : State} {x : Nat → Byte}

/-- Where the byte `i` of the access lies in the right part. -/
theorem Parts.addr_right (parts : Parts n b e pa p) {i : Nat} (first : n - 1 - e ≤ i) (hi : i < n) :
    Memory.addr p (i - (n - 1 - e)) = Memory.addr pa i := by
  have := parts.right
  rw [parts.addr _ (by omega)]
  congr 1
  omega

/-- Both parts stored are the access stored. -/
theorem StoredBytes.parts (parts : Parts n b e pa p) (left : StoredBytes s t pa (n - b) x)
    (right : StoredBytes t u p (e + 1) fun k => x (n - 1 - e + k)) (ram : s.owner pa = .ram)
    (ram' : t.owner p = .ram) : StoredBytes s u pa n x where
  held _ i hi := by
    have size := parts.size
    have meet := parts.meet
    by_cases first : n - 1 - e ≤ i
    · rw [← parts.addr_right first hi, right.held ram' _ (by omega)]
      congr 2
      omega
    · rw [right.others _ fun k hk same => ?_, left.held ram i (by omega)]
      rw [parts.addr k (by omega)] at same
      have := addr_injective pa (by omega) (by omega) same
      omega
  others a outside := by
    have := parts.right
    rw [right.others a fun k hk => parts.addr k (by omega) ▸ outside _ (by omega),
      left.others a fun k hk => outside k (by omega)]
  ignored device := absurd ram device

/-- Both parts loaded give every byte of the access. -/
theorem byteOf_parts (parts : Parts n b e pa p) {v w : Word}
    (held : ∀ i < n, Memory.byteAt t.mem (Memory.addr pa i) = some (x i))
    (held' : u.mem = t.mem) (ram : t.owner pa = .ram) (ram' : u.owner p = .ram)
    (left : ∀ k < n - b, Memory.byteOf v n k = t.busByte false pa (n - b) k)
    (right : ∀ k < n, Memory.byteOf w n k = if k < n - 1 - e then Memory.byteOf v n k
      else u.busByte false p (e + 1) (k - (n - 1 - e)))
    {k : Nat} (hk : k < n) : Memory.byteOf w n k = x k := by
  have meet := parts.meet
  rw [right k hk]
  by_cases first : k < n - 1 - e
  · rw [if_pos first, left k (by omega), busByte_held false (.inl ram) (held k hk)]
  · have place := parts.addr_right (Nat.not_lt.1 first) hk
    rw [if_neg first]
    exact busByte_held false (.inl ram') (by rw [held', place, held k hk])

end

/-! ### Values of `n` bytes -/

theorem getLsbD_sextBytes (n : Nat) (v : Word) {i : Nat} (hi : i < 8 * n) (bit : i < 64) :
    (sextBytes n v).getLsbD i = v.getLsbD i := by
  rw [sextBytes, BitVec.getLsbD_signExtend, BitVec.getLsbD_setWidth]
  simp [hi, bit]

theorem byteOf_sextBytes {n : Nat} (hn : n ≤ 8) (v : Word) {k : Nat} (hk : k < n) :
    Memory.byteOf (sextBytes n v) n k = Memory.byteOf v n k := by
  refine byteOf_ext fun j hj => ?_
  rw [getLsbD_sextBytes n v (by omega) (by omega)]

/-- The value is its `n` bytes, sign-extended. -/
theorem sextBytes_congr {n : Nat} {v w : Word}
    (h : ∀ k < n, Memory.byteOf v n k = Memory.byteOf w n k) : sextBytes n v = sextBytes n w := by
  unfold sextBytes
  congr 1
  refine BitVec.eq_of_getLsbD_eq fun i hi => ?_
  have bit := congrArg (·.getLsbD (i % 8)) (h (n - 1 - i / 8) (by omega))
  have place : 8 * (n - 1 - (n - 1 - i / 8)) + i % 8 = i := by omega
  simp only [getLsbD_byteOf _ _ _ (Nat.mod_lt i (by decide : 0 < 8)), place] at bit
  rw [BitVec.getLsbD_setWidth, BitVec.getLsbD_setWidth, bit]

theorem sextBytes_eight (v : Word) : sextBytes 8 v = v := by
  rw [sextBytes, BitVec.setWidth_eq, BitVec.signExtend_eq]

/-! ### One instruction after another -/

section
variable {s t u : State}

/-- `t` is `s` but for memory, general registers and the pipeline state. -/
def SameButMem (s t : State) : Prop := SameButGpr { s with mem := t.mem } t

theorem sameButMem_of (h : SameButGpr s t) : SameButMem s t := by
  have mem : t.mem = s.mem := (congrArg State.mem h :)
  rw [SameButMem, mem]; exact h

theorem SameButMem.trans (h : SameButMem s t) (h' : SameButMem t u) : SameButMem s u := by
  unfold SameButMem SameButGpr at *
  cases s; cases t; cases u
  simp_all

theorem SameButMem.cp0 (h : SameButMem s t) : t.cp0 = s.cp0 := (congrArg State.cp0 h :)

theorem SameButMem.owner (h : SameButMem s t) (pa : PAddr) : t.owner pa = s.owner pa :=
  owner_congr (congrArg State.ports h :) pa

theorem SameButMem.translate (h : SameButMem s t) (va : Word) (intent : Intent) :
    t.translate va intent = s.translate va intent :=
  translate_congr h.cp0 (congrArg State.tlb h :) va intent

/-- A pending load is seen in its own register only (R510). -/
theorem committed_eq_readGpr {r : Reg} (h : ∀ l, s.ld = some l → l.reg ≠ r) :
    s.committed r = s.readGpr r := by
  unfold State.committed
  by_cases zero : r = 0
  · rw [if_pos zero, zero]; rfl
  · rw [if_neg zero]
    cases ld : s.ld with
    | none => rfl
    | some l => exact if_neg (h l ld)

theorem Advanced.committed_eq (h : Advanced s t none) (r : Reg) : t.committed r = s.committed r := by
  rw [committed_eq_readGpr (by simp [h.ld])]
  exact h.gpr r

section
variable {q : Reg} {v : Word} (h : Loaded s t q v)
include h

/-- The register of a load gets the loaded value one instruction later (R504, 3a). -/
theorem Loaded.committed_same (hq : q ≠ 0) : t.committed q = v := by
  rw [State.committed, if_neg hq, h.ld, if_neg hq]
  exact if_pos rfl

theorem Loaded.committed_other {r : Reg} (hr : r ≠ q) : t.committed r = s.committed r := by
  rw [committed_eq_readGpr fun l hl => ?_, h.gpr]
  rw [h.ld] at hl
  split_ifs at hl
  cases hl
  exact hr.symm

end

theorem effectiveAddress_congr {base : Reg} (h : t.readGpr base = s.readGpr base) (imm : BitVec 16) :
    t.effectiveAddress base imm = s.effectiveAddress base imm := by
  rw [State.effectiveAddress, State.effectiveAddress, h]

/-- A displacement that stays in the range of 16 bits goes up with the address. -/
theorem effectiveAddress_add (s : State) (base : Reg) {imm : BitVec 16} {d : Nat}
    (range : imm.toInt + d < 2 ^ 15) : s.effectiveAddress base (imm + BitVec.ofNat 16 d) =
      s.effectiveAddress base imm + BitVec.ofNat 64 d := by
  have lower := BitVec.le_toInt imm
  have sum : imm + BitVec.ofNat 16 d = BitVec.ofInt 16 (imm.toInt + d) := by
    rw [BitVec.ofInt_add, BitVec.ofInt_toInt, BitVec.ofInt_natCast]
  have exact_sum : (imm + BitVec.ofNat 16 d).toInt = imm.toInt + d := by
    rw [sum, BitVec.toInt_ofInt_eq_self (by decide) (by omega) range]
  rw [State.effectiveAddress, State.effectiveAddress, BitVec.add_assoc, sextImm, sextImm, BitVec.signExtend,
    BitVec.signExtend, exact_sum, BitVec.ofInt_add, BitVec.ofInt_natCast]

theorem StoredBytes.of_mem {pa : PAddr} {n : Nat} {b : Nat → Byte} (h : StoredBytes s t pa n b)
    (mem : u.mem = t.mem) : StoredBytes s u pa n b :=
  ⟨mem ▸ h.held, mem ▸ h.others, mem ▸ h.ignored⟩

end

/-! ### The four partial forms of a size -/

/-- `i` stores the bytes `b` in one write. -/
def StoresPart (i : Instr) (s : State) (pa : PAddr) (n : Nat) (b : Nat → Byte) : Prop :=
  ∃ t, exec i s = .next t ∧ Advanced s t none ∧ SameButMem s t ∧ StoredBytes s t pa n b

/-- `i` loads the `n` bytes `b`, sign-extended, into `rt`. -/
def LoadsPart (i : Instr) (s : State) (rt : Reg) (n : Nat) (b : Nat → Byte) : Prop :=
  ∃ v t, exec i s = .next t ∧ Loaded s t rt (sextBytes n v) ∧ SameButGpr s t ∧
    ∀ k < n, Memory.byteOf v n k = b k

/-- What the left and right forms of size `n` do in `s` at an address that maps (R308 to R311, R316 to
R319). -/
structure PartialForms (n : Nat) (s : State) (sl sr ll lr : Reg → Reg → BitVec 16 → Instr) : Prop where
  storeLeft {rt base imm va pa attr} :
    s.effectiveAddress base imm = va → s.translate va .store = .physical pa attr →
    StoresPart (sl rt base imm) s pa (n - va.toNat % n) (Memory.byteOf (s.readGpr rt) n)
  storeRight {rt base imm va pa attr} :
    s.effectiveAddress base imm = va → s.translate va .store = .physical pa attr →
    StoresPart (sr rt base imm) s (pa &&& ~~~BitVec.ofNat 32 (n - 1)) (va.toNat % n + 1)
      fun k => Memory.byteOf (s.readGpr rt) n (n - 1 - va.toNat % n + k)
  loadLeft {rt base imm va pa attr} :
    s.effectiveAddress base imm = va → s.translate va .load = .physical pa attr →
    LoadsPart (ll rt base imm) s rt n fun k =>
      if k < n - va.toNat % n then s.busByte false pa (n - va.toNat % n) k
      else Memory.byteOf (s.committed rt) n k
  loadRight {rt base imm va pa attr} :
    s.effectiveAddress base imm = va → s.translate va .load = .physical pa attr →
    LoadsPart (lr rt base imm) s rt n fun k =>
      if k < n - 1 - va.toNat % n then Memory.byteOf (s.committed rt) n k
      else s.busByte false (pa &&& ~~~BitVec.ofNat 32 (n - 1)) (va.toNat % n + 1)
        (k - (n - 1 - va.toNat % n))

/-- The value of a word form, whose low half the statement of the loads names. -/
theorem loadsPart_word {i : Instr} {s : State} {rt : Reg} {b : Nat → Byte}
    (h : ∃ w : BitVec 32, (∃ t, exec i s = .next t ∧ Loaded s t rt (w.signExtend 64) ∧ SameButGpr s t) ∧
      ∀ k < 4, Memory.byteOf (w.setWidth 64) 4 k = b k) : LoadsPart i s rt 4 b := by
  obtain ⟨w, ⟨t, run, loaded, same⟩, bytes⟩ := h
  exact ⟨w.setWidth 64, t, run, (sextBytes_setWidth (n := 4) w (by decide)).symm ▸ loaded, same, bytes⟩

theorem loadsPart_double {i : Instr} {s : State} {rt : Reg} {b : Nat → Byte}
    (h : ∃ v : Word, (∃ t, exec i s = .next t ∧ Loaded s t rt v ∧ SameButGpr s t) ∧
      ∀ k < 8, Memory.byteOf v 8 k = b k) : LoadsPart i s rt 8 b := by
  obtain ⟨v, ⟨t, run, loaded, same⟩, bytes⟩ := h
  exact ⟨v, t, run, (sextBytes_eight v).symm ▸ loaded, same, bytes⟩

theorem partialForms_word (s : State) : PartialForms 4 s .swl .swr .lwl .lwr where
  storeLeft := by
    rintro rt base imm _ pa attr rfl maps
    obtain ⟨left, -, -⟩ := partialStores s rt base imm pa attr maps
    exact left
  storeRight := by
    rintro rt base imm _ pa attr rfl maps
    obtain ⟨-, right, -⟩ := partialStores s rt base imm pa attr maps
    exact right
  loadLeft := by
    rintro rt base imm _ pa attr rfl maps
    obtain ⟨left, -, -⟩ := partialLoads s rt base imm pa attr maps
    exact loadsPart_word left
  loadRight := by
    rintro rt base imm _ pa attr rfl maps
    obtain ⟨-, right, -⟩ := partialLoads s rt base imm pa attr maps
    exact loadsPart_word right

theorem partialForms_double {s : State} (h64 : s.ops64 = true) : PartialForms 8 s .sdl .sdr .ldl .ldr where
  storeLeft := by
    rintro rt base imm _ pa attr rfl maps
    obtain ⟨-, -, double⟩ := partialStores s rt base imm pa attr maps
    exact (double h64).1
  storeRight := by
    rintro rt base imm _ pa attr rfl maps
    obtain ⟨-, -, double⟩ := partialStores s rt base imm pa attr maps
    exact (double h64).2
  loadLeft := by
    rintro rt base imm _ pa attr rfl maps
    obtain ⟨-, -, double⟩ := partialLoads s rt base imm pa attr maps
    exact loadsPart_double (double h64).1
  loadRight := by
    rintro rt base imm _ pa attr rfl maps
    obtain ⟨-, -, double⟩ := partialLoads s rt base imm pa attr maps
    exact loadsPart_double (double h64).2

/-! ### The round trip (R334(d)) -/

section
variable {n : Nat} {sl sr ll lr : Reg → Reg → BitVec 16 → Instr} {s : State} {r q base : Reg}
  {imm imm' : BitVec 16} {va va' : Word} {pa pa' : PAddr} {attr attr' : CacheAttr}

section
variable (forms : ∀ u : State, u.cp0 = s.cp0 → PartialForms n u sl sr ll lr)
  (parts : Parts n (va.toNat % n) (va'.toNat % n) pa (pa' &&& ~~~BitVec.ofNat 32 (n - 1)))
  (ram : s.owner pa = .ram) (ram' : s.owner (pa' &&& ~~~BitVec.ofNat 32 (n - 1)) = .ram)
  (ea : s.effectiveAddress base imm = va) (ea' : s.effectiveAddress base imm' = va')
  (settled : s.committed base = s.readGpr base)
include forms parts ram ram' ea ea' settled

/-- The left store changes nothing the right one looks at. -/
theorem storePair (maps : s.translate va .store = .physical pa attr)
    (maps' : s.translate va' .store = .physical pa' attr') (settledR : s.committed r = s.readGpr r) :
    ∃ t u, exec (sl r base imm) s = .next t ∧ exec (sr r base imm') t = .next u ∧
      (∀ k, u.readGpr k = s.committed k) ∧ (∀ k, u.committed k = s.committed k) ∧ SameButMem s u ∧
      StoredBytes s u pa n (Memory.byteOf (s.readGpr r) n) := by
  obtain ⟨t, left, done, same, stored⟩ := (forms s rfl).storeLeft (rt := r) ea maps
  have addr : t.effectiveAddress base imm' = va' :=
    (effectiveAddress_congr ((done.gpr base).trans settled) imm').trans ea'
  obtain ⟨u, right, done', same', stored'⟩ :=
    (forms t same.cp0).storeRight (rt := r) addr ((same.translate ..).trans maps')
  rw [(done.gpr r).trans settledR] at stored'
  exact ⟨t, u, left, right, fun k => (done'.gpr k).trans (done.committed_eq k),
    fun k => (done'.committed_eq k).trans (done.committed_eq k), same.trans same',
    stored.parts parts stored' ram ((same.owner _).trans ram')⟩

/-- The right load sees the left one, still in its delay slot (R511(c)). -/
theorem loadPair (maps : s.translate va .load = .physical pa attr)
    (maps' : s.translate va' .load = .physical pa' attr') {x : Word}
    (held : ∀ i < n, Memory.byteAt s.mem (Memory.addr pa i) = some (Memory.byteOf x n i)) :
    ∃ t u, exec (ll q base imm) s = .next t ∧ exec (lr q base imm') t = .next u ∧
      u.ld = (if q = 0 then none else some ⟨q, sextBytes n x⟩) ∧ SameButGpr s t ∧ SameButGpr t u ∧
      ∀ k, k ≠ q → u.readGpr k = s.committed k := by
  obtain ⟨v, t, left, loaded, same, bytes⟩ := (forms s rfl).loadLeft (rt := q) ea maps
  have frame := sameButMem_of same
  have addr : t.effectiveAddress base imm' = va' :=
    (effectiveAddress_congr ((loaded.gpr base).trans settled) imm').trans ea'
  obtain ⟨w, u, right, loaded', same', bytes'⟩ :=
    (forms t frame.cp0).loadRight (rt := q) addr ((frame.translate ..).trans maps')
  refine ⟨t, u, left, right, loaded'.ld.trans ?_, same, same', fun k hk =>
    (loaded'.gpr k).trans (loaded.committed_other hk)⟩
  by_cases hq : q = 0
  · rw [if_pos hq, if_pos hq]
  · rw [loaded.committed_same hq] at bytes'
    have value : sextBytes n w = sextBytes n x := sextBytes_congr fun k hk =>
      byteOf_parts parts held (congrArg State.mem same :) ram ((frame.owner _).trans ram')
        (fun k hk => (byteOf_sextBytes parts.size v (by omega)).trans
          ((bytes k (by omega)).trans (if_pos hk))) bytes' hk
    rw [value]

end

/-- The loads of a pair run as the stores did: what translates and who owns the memory is as before. -/
theorem roundTrip (hn : n = 4 ∨ n = 8) (forms : ∀ u : State, u.cp0 = s.cp0 → PartialForms n u sl sr ll lr)
    (pending : ∀ l, s.ld = some l → l.reg ≠ r ∧ l.reg ≠ base) (ea : s.effectiveAddress base imm = va)
    (range : imm.toInt + (n - 1 : Nat) < 2 ^ 15)
    (maps : ∀ intent ∈ [Intent.load, Intent.store],
      (∃ attr, s.translate va intent = .physical pa attr) ∧
      ∃ attr, s.translate (va + BitVec.ofNat 64 (n - 1)) intent =
        .physical (pa + BitVec.ofNat 32 (n - 1)) attr)
    (ram : s.owner pa = .ram)
    (ram' : s.owner ((pa + BitVec.ofNat 32 (n - 1)) &&& ~~~BitVec.ofNat 32 (n - 1)) = .ram) :
    ∃ t₁ t₂ t₃ t₄,
      exec (sl r base imm) s = .next t₁ ∧ exec (sr r base (imm + BitVec.ofNat 16 (n - 1))) t₁ = .next t₂ ∧
      exec (ll q base imm) t₂ = .next t₃ ∧ exec (lr q base (imm + BitVec.ofNat 16 (n - 1))) t₃ = .next t₄ ∧
      t₄.ld = (if q = 0 then none else some ⟨q, sextBytes n (s.readGpr r)⟩) ∧
      StoredBytes s t₄ pa n (fun k => Memory.byteOf (s.readGpr r) n k) ∧
      SameButGpr { s with mem := t₄.mem } t₄ ∧ ∀ k, k ≠ q → t₄.readGpr k = s.committed k := by
  obtain ⟨⟨_, loadMaps⟩, _, loadMaps'⟩ := maps .load (by simp)
  obtain ⟨⟨_, storeMaps⟩, _, storeMaps'⟩ := maps .store (by simp)
  have ea' : s.effectiveAddress base (imm + BitVec.ofNat 16 (n - 1)) = va + BitVec.ofNat 64 (n - 1) := by
    rw [effectiveAddress_add s base range, ea]
  have parts := parts_of hn pa
  rw [translate_mod hn storeMaps, translate_mod hn storeMaps'] at parts
  have settled : s.committed base = s.readGpr base := committed_eq_readGpr fun l hl => (pending l hl).2
  obtain ⟨t₁, t₂, run₁, run₂, regs, regs', same, stored⟩ := storePair forms parts ram ram' ea ea' settled
    storeMaps storeMaps' (committed_eq_readGpr fun l hl => (pending l hl).1)
  have addr imm := effectiveAddress_congr ((regs base).trans settled) imm
  obtain ⟨t₃, t₄, run₃, run₄, ld, same₃, same₄, others⟩ := loadPair (s := t₂) (q := q)
    (fun u hu => forms u (hu.trans same.cp0)) parts ((same.owner _).trans ram) ((same.owner _).trans ram')
    ((addr _).trans ea) ((addr _).trans ea') ((regs' base).trans (regs base).symm)
    ((same.translate ..).trans loadMaps) ((same.translate ..).trans loadMaps') (stored.held ram)
  have mem : t₄.mem = t₂.mem := (congrArg State.mem same₄ :).trans (congrArg State.mem same₃ :)
  exact ⟨t₁, t₂, t₃, t₄, run₁, run₂, run₃, run₄, ld, stored.of_mem mem,
    (same.trans (sameButMem_of same₃)).trans (sameButMem_of same₄),
    fun k hk => (others k hk).trans (regs' k)⟩

end

/-- Settles O45: the forms of each size make the round trip; the displacement of the right ones is the size
less one. -/
theorem unalignedRoundTrip : Obligations.UnalignedRoundTrip := by
  intro s r q base imm pa ea moves pending
  refine ⟨roundTrip (.inl rfl) (fun u _ => partialForms_word u) pending rfl, fun h64 => ?_⟩
  have forms (u : State) (hu : u.cp0 = s.cp0) : PartialForms 8 u .sdl .sdr .ldl .ldr :=
    partialForms_double ((ops64_congr (congrArg Cp0.status hu)).trans h64)
  exact sextBytes_eight (s.readGpr r) ▸ roundTrip (.inr rfl) forms pending rfl

end Sys2Proof.Machine
end

section
/-! PROOFS. System calls and traps: the conditions of the traps in the terms of the statement, and how a trap
ends either way. -/

namespace Sys2Proof.Machine

/-! ### The conditions of the traps (R340(c), R345 to R356) -/

section
variable {v w : Word}

theorem not_slt_iff : (!v.slt w) = true ↔ w.toInt ≤ v.toInt := by
  rw [Bool.not_eq_true', ← Bool.not_eq_true, BitVec.slt_iff_toInt_lt, Int.not_lt]

theorem not_ult_iff : (!v.ult w) = true ↔ w.toNat ≤ v.toNat := by
  rw [Bool.not_eq_true', ← Bool.not_eq_true, BitVec.ult_iff_lt, BitVec.lt_def, Nat.not_lt]

end

/-- A trap raises where its condition holds, and otherwise completes with nothing written. -/
theorem trapIf_spec {c : Bool} {p : Prop} {s : State} (cond : c = true ↔ p) :
    (p → ∃ t, trapIf c s = .next t ∧ Raised s t .trap 0 none) ∧
    (¬ p → ∃ t, trapIf c s = .next t ∧ Advanced s t none ∧ SameButGpr s t) := by
  rw [← cond, trapIf]
  refine ⟨fun holds => ?_, fun fails => ?_⟩
  · rw [if_pos holds]; exact raise_spec ..
  · rw [if_neg fails]; exact completeId_spec s

/-- Settles O46: one form of ending for all twelve traps, each with its condition; an immediate is
sign-extended to the word it is compared as. -/
theorem systemAndTraps : Obligations.SystemAndTraps := by
  intro s rs rt base imm code op a b c raises passes traps
  refine ⟨raise_spec .., raise_spec .., raise_spec .., completeId_spec s, fun usable => ?cache,
    trapIf_spec not_slt_iff, trapIf_spec not_ult_iff,
    trapIf_spec BitVec.slt_iff_toInt_lt, trapIf_spec BitVec.ult_iff_lt,
    trapIf_spec beq_iff_eq, trapIf_spec bne_iff_ne,
    trapIf_spec not_slt_iff, trapIf_spec not_ult_iff,
    trapIf_spec BitVec.slt_iff_toInt_lt, trapIf_spec BitVec.ult_iff_lt,
    trapIf_spec beq_iff_eq, trapIf_spec bne_iff_ne⟩
  case cache =>
    obtain ⟨t, run, after⟩ := completeId_spec s
    exact ⟨t, (withCop0_of usable _).trans run, after⟩

end Sys2Proof.Machine
end

section
/-! PROOFS. Coprocessor 0: how an instruction that writes system state completes, the registers by number, one
entry of the TLB moved or probed for, and the return from an exception. -/

namespace Sys2Proof.Machine

/-! ### Moves from the system-control registers (R370 to R372) -/

section
variable {s : State} {rt n : Reg} (usable : s.copUsable0 = true)
include usable

theorem mfc0_spec {v : Word} (value : s.readCp0Narrow n = v) :
    ∃ t, exec (.mfc0 rt n) s = .next t ∧ WroteGpr s t rt v := by
  obtain ⟨t, run, wrote⟩ := writeBack_eq (s := s) (rd := rt) value
  exact ⟨t, (withCop0_of usable _).trans run, wrote⟩

theorem dmfc0_spec (h64 : s.ops64 = true) {v : Word} (value : s.readCp0Wide n = v) :
    ∃ t, exec (.dmfc0 rt n) s = .next t ∧ WroteGpr s t rt v := by
  obtain ⟨t, run, wrote⟩ := writeBack_eq (s := s) (rd := rt) value
  exact ⟨t, ((withCop0_of usable _).trans (withOps64_of h64 _)).trans run, wrote⟩

/-- Both moves from a 32-bit register; the upper half DMFC0 reads is free (R73). -/
theorem moveFromNarrow_spec {v : BitVec 32} (value : s.cp0Value n = .narrow v) :
    (∃ t, exec (.mfc0 rt n) s = .next t ∧ WroteGpr s t rt (v.signExtend 64)) ∧
    (s.ops64 = true →
      ∃ t, exec (.dmfc0 rt n) s = .next t ∧ ∃ upper : BitVec 32, WroteGpr s t rt (upper ++ v)) := by
  refine ⟨mfc0_spec usable (by rw [State.readCp0Narrow, value]), fun h64 => ?_⟩
  have wide : s.readCp0Wide n = Config.cp0Upper s.draws n ++ v := by rw [State.readCp0Wide, value]
  obtain ⟨t, run, wrote⟩ := dmfc0_spec (rt := rt) usable h64 wide
  exact ⟨t, run, _, wrote⟩

/-- Both moves from a 64-bit register. -/
theorem moveFromWide_spec {v : Word} (value : s.cp0Value n = .wide v) :
    (∃ t, exec (.mfc0 rt n) s = .next t ∧ WroteGpr s t rt ((v.setWidth 32).signExtend 64)) ∧
    (s.ops64 = true → ∃ t, exec (.dmfc0 rt n) s = .next t ∧ WroteGpr s t rt v) :=
  ⟨mfc0_spec usable (by rw [State.readCp0Narrow, value, ← lowWord_eq]; rfl),
    fun h64 => dmfc0_spec usable h64 (by rw [State.readCp0Wide, value])⟩

/-- Both moves from any register number, whatever it reads (free for a reserved one, R73). -/
theorem moveFrom_completes :
    (∃ t v, exec (.mfc0 rt n) s = .next t ∧ WroteGpr s t rt v) ∧
    (s.ops64 = true → ∃ t v, exec (.dmfc0 rt n) s = .next t ∧ WroteGpr s t rt v) := by
  refine ⟨?_, fun h64 => ?_⟩
  · obtain ⟨t, after⟩ := mfc0_spec (rt := rt) (n := n) usable rfl
    exact ⟨t, _, after⟩
  · obtain ⟨t, after⟩ := dmfc0_spec (rt := rt) (n := n) usable h64 rfl
    exact ⟨t, _, after⟩

end

/-- Cause with its live lines one by one (R63, R88, R89). -/
theorem cause_eq (s : State) : s.cause =
    s.cp0.cause.extractLsb' 16 16 ++ BitVec.ofBool (s.irq.irq7 || s.timerIp) ++
      BitVec.ofBool s.irq.irq6 ++ BitVec.ofBool s.irq.irq5 ++ BitVec.ofBool s.irq.irq4 ++
      BitVec.ofBool s.irq.irq3 ++ BitVec.ofBool s.irq.irq2 ++ s.cp0.cause.extractLsb' 0 10 := by
  simp only [State.cause, State.hardwareIp, BitVec.append_assoc, BitVec.cast_eq]

/-- Settles O47: each register number by what it names. -/
theorem movesFromCp0 : Obligations.MovesFromCp0 := by
  intro s rt usable word double line
  have narrow {n : Reg} {v : BitVec 32} (value : s.cp0Value n = .narrow v) : word n v :=
    moveFromNarrow_spec usable value
  have wide {n : Reg} {v : Word} (value : s.cp0Value n = .wide v) : double n v :=
    moveFromWide_spec usable value
  exact ⟨narrow rfl, narrow rfl, wide rfl, wide rfl, wide rfl, narrow rfl, narrow rfl, wide rfl,
    narrow rfl, wide rfl, narrow rfl, narrow rfl, narrow (congrArg _ (cause_eq s)), wide rfl,
    narrow rfl, narrow rfl, narrow rfl, narrow rfl, narrow rfl, wide rfl, narrow rfl, narrow rfl,
    narrow rfl, narrow rfl, wide rfl, fun _ _ => moveFrom_completes usable⟩

/-! ### How an instruction that writes system state completes (R370(b)) -/

/-- System-control registers, the TLB and the timer latch written, the rest settled as after any
instruction that is no branch and no load. -/
theorem completeSystem_spec {s : State} {f : State → State} {c : Cp0} {tlb : Vector TlbEntry 32}
    {timer : Bool}
    (writes : f s.commitLoad = { s.commitLoad with cp0 := c, tlb := tlb, timerIp := timer }) :
    ∃ t, complete f s = .next t ∧ Advanced s t none ∧ t.cp0 = c ∧ t.tlb = tlb ∧ t.timerIp = timer ∧
      SameButGpr { s with cp0 := c, tlb := tlb, timerIp := timer } t := by
  rw [complete_next, writes]
  refine ⟨_, rfl, advanced_of (commitLoad_pc s) (commitLoad_br s) (commitLoad_ld s)
    fun r => readGpr_commitLoad s r, ?_⟩
  simp [SameButGpr, advance_eq]

/-! ### Moves to the system-control registers (R370, R373, R374) -/

theorem completeWriteCp0_spec (n : Reg) (v : Word) (s : State) :
    ∃ t, complete (·.writeCp0 n v) s = .next t ∧ Advanced s t none ∧ t.cp0 = s.cp0.write n v ∧
      t.timerIp = (if n = 11 then false else s.timerIp) ∧
      SameButGpr { s with cp0 := t.cp0, timerIp := t.timerIp } t := by
  obtain ⟨t, run, advanced, regs, -, timer, same⟩ :=
    completeSystem_spec (s := s) (f := (·.writeCp0 n v)) (c := s.cp0.write n v) (tlb := s.tlb)
      (timer := if n = 11 then false else s.timerIp) (by simp [State.writeCp0])
  exact ⟨t, run, advanced, regs, timer, by rw [regs, timer]; exact same⟩

/-- Settles O48: the value is the sign-extended low word or the whole register; what each register takes
of it is the definition of the masked write. -/
theorem movesToCp0 : Obligations.MovesToCp0 := by
  intro s rt usable put w d c
  have moves {n : Reg} {after : Word → Cp0} (writes : s.cp0.write n = after) : put n after := by
    subst writes
    refine ⟨?_, fun h64 => ?_⟩
    · obtain ⟨t, run, completes⟩ := completeWriteCp0_spec n (sext32 (lowWord (s.readGpr rt))) s
      exact ⟨t, (withCop0_of usable _).trans run, completes⟩
    · obtain ⟨t, run, completes⟩ := completeWriteCp0_spec n (s.readGpr rt) s
      exact ⟨t, ((withCop0_of usable _).trans (withOps64_of h64 _)).trans run, completes⟩
  have readOnly : ∀ n ∈ [1#5, 7#5, 8#5, 15#5, 21#5, 22#5, 23#5, 24#5, 25#5, 27#5, 29#5, 31#5],
      s.cp0.write n = fun _ => c := by
    intro n hn
    fin_cases hn <;> rfl
  exact ⟨moves rfl, moves rfl, moves rfl, moves rfl, moves rfl, moves rfl, moves rfl, moves rfl,
    moves rfl, moves rfl, moves rfl, moves rfl, moves rfl, moves rfl, moves rfl, moves rfl, moves rfl,
    moves rfl, moves rfl, moves rfl, fun n hn => moves (readOnly n hn)⟩

/-! ### One entry of the TLB read and written (R375 to R377) -/

theorem tlbEntry_congr {s t : State} (h : t.tlb = s.tlb) (i : BitVec 5) : t.tlbEntry i = s.tlbEntry i := by
  simp [State.tlbEntry, h]

/-- The page number an entry is written with: the bits of EntryHi that PageMask leaves (R376). -/
theorem tlbImage_vpn2_getLsbD (c : Cp0) {k : Nat} (hk : k < 27) :
    c.tlbImage.vpn2.getLsbD k = (c.entryHi.getLsbD (13 + k) && !c.tlbImage.mask.getLsbD k) := by
  simp [Cp0.tlbImage, hk]

theorem completeWriteTlb_spec (i : BitVec 5) (s : State) :
    ∃ t, complete (State.writeTlb i) s = .next t ∧ Advanced s t none ∧
      SameButGpr { s with tlb := t.tlb } t ∧ (∀ j, j ≠ i → t.tlbEntry j = s.tlbEntry j) ∧
      t.tlbEntry i = s.cp0.tlbImage := by
  obtain ⟨t, run, advanced, -, tlb, -, same⟩ :=
    completeSystem_spec (s := s) (f := State.writeTlb i) (c := s.cp0) (tlb := (s.writeTlb i).tlb)
      (timer := s.timerIp) (by simp [State.writeTlb])
  have entry (j : BitVec 5) : t.tlbEntry j = if j = i then s.cp0.tlbImage else s.tlbEntry j :=
    (tlbEntry_congr tlb j).trans (tlbEntry_writeTlb s i j)
  exact ⟨t, run, advanced, by rw [tlb]; exact same, fun j other => (entry j).trans (if_neg other),
    (entry i).trans (if_pos rfl)⟩

/-- A bounded Wired protects the slots below it from the slot Random names (R52, R377). -/
theorem wired_le_randomSlot {s : State} (inv : s.Inv) (bounded : s.cp0.wired.toNat ≤ 31) :
    s.cp0.wired.toNat ≤ s.randomSlot.toNat := by
  obtain ⟨lower, upper⟩ := inv.cp0.bound bounded
  have upper : s.cp0.random.toNat ≤ 31 := upper
  have slot : s.randomSlot.toNat = s.cp0.random.toNat := by
    rw [State.randomSlot, BitVec.extractLsb'_toNat, Nat.shiftRight_zero]
    exact Nat.mod_eq_of_lt (Nat.lt_succ_of_le upper)
  exact slot ▸ lower

/-- Settles O49: one entry to the registers, the registers to one entry, and the slots Random can name. -/
theorem tlbReadWrite : Obligations.TlbReadWrite := by
  intro s usable atIndex atRandom c
  refine ⟨?read, ?write, wired_le_randomSlot⟩
  case read =>
    obtain ⟨t, run, advanced, regs, -, -, same⟩ :=
      completeSystem_spec (s := s)
        (f := fun u => { u with cp0 := u.cp0.readTlb (s.tlbEntry s.indexSlot) })
        (c := s.cp0.readTlb (s.tlbEntry s.indexSlot)) (tlb := s.tlb) (timer := s.timerIp) (by simp)
    exact ⟨t, (withCop0_of usable _).trans run, advanced, by rw [regs]; exact same, regs⟩
  case write =>
    intro x hx
    have named : exec x.1 s = withCop0 s (complete (State.writeTlb x.2) s) := by
      fin_cases hx <;> rfl
    obtain ⟨t, run, advanced, same, others, entry⟩ := completeWriteTlb_spec x.2 s
    refine ⟨t, (named.trans (withCop0_of usable _)).trans run, advanced, same, others, ?_⟩
    rw [entry]
    exact ⟨rfl, rfl, fun _ => tlbImage_vpn2_getLsbD c, rfl, rfl, rfl, rfl, rfl, rfl, rfl, rfl, rfl, rfl⟩

/-! ### The probe (R378) -/

theorem completeSetProbe_spec (found : Option Nat) (s : State) :
    ∃ t, complete (State.setProbe found) s = .next t ∧ Advanced s t none ∧
      t.cp0 = (s.setProbe found).cp0 ∧
      SameButGpr { s with cp0 := { s.cp0 with index := t.cp0.index } } t := by
  obtain ⟨t, run, advanced, regs, -, -, same⟩ :=
    completeSystem_spec (s := s) (f := State.setProbe found) (c := (s.setProbe found).cp0)
      (tlb := s.tlb) (timer := s.timerIp) (by simp [State.setProbe])
  exact ⟨t, run, advanced, regs, by rw [regs]; exact same⟩

/-- A probe that found nothing: P set, the reserved bits clear (R51). -/
theorem setProbe_none_index (s : State) : (s.setProbe none).cp0.index.getLsbD 31 = true ∧
    (s.setProbe none).cp0.index.extractLsb' 6 25 = 0 := by
  have bits : ∀ free : BitVec 6, (1#1 ++ 0#25 ++ free).getLsbD 31 = true ∧
      (1#1 ++ 0#25 ++ free).extractLsb' 6 25 = 0 := by decide
  exact bits _

/-- Settles O50: the hits are the entries that cover the address, so their number decides. -/
theorem tlbProbe : Obligations.TlbProbe := by
  intro s usable covers gives
  have run : exec .tlbp s = _ := withCop0_of usable _
  refine ⟨fun uncovered => ?_, fun i hi only => ?_, fun i j hi hj ne => ?_⟩
  · obtain ⟨t, next, advanced, regs, same⟩ := completeSetProbe_spec none s
    refine ⟨t, ?_, advanced, by rw [regs]; exact setProbe_none_index s, same⟩
    rw [run, tlbHits_eq_nil uncovered]
    exact next
  · obtain ⟨t, next, advanced, regs, same⟩ := completeSetProbe_spec (some i.toNat) s
    refine ⟨t, ?_, advanced, by rw [regs]; exact BitVec.ofNat_toNat .., same⟩
    rw [run, tlbHits_eq_singleton hi only]
    exact next
  · have two := two_le_length_tlbHits hi hj ne
    rw [run]
    match s.tlbHits s.cp0.entryHi, two with
    | _ :: _ :: _, _ => rfl

/-! ### The return from an exception (R379, R560) -/

/-- A mask that holds every bit but one clears that one. -/
theorem getLsbD_and_allBut {mask : BitVec 32} {bit : Nat}
    (allBut : ∀ k < 32, mask.getLsbD k = decide (k ≠ bit)) (st : BitVec 32) {k : Nat} (hk : k < 32) :
    (st &&& mask).getLsbD k = (decide (k ≠ bit) && st.getLsbD k) := by
  rw [BitVec.getLsbD_and, allBut k hk, Bool.and_comm]

theorem getLsbD_clearErl (st : BitVec 32) {k : Nat} (hk : k < 32) :
    (st &&& 0xFFFFFFFB).getLsbD k = (decide (k ≠ 2) && st.getLsbD k) :=
  getLsbD_and_allBut (by decide) st hk

theorem getLsbD_clearExl (st : BitVec 32) {k : Nat} (hk : k < 32) :
    (st &&& 0xFFFFFFFD).getLsbD k = (decide (k ≠ 1) && st.getLsbD k) :=
  getLsbD_and_allBut (by decide) st hk

/-- With ERL clear, clearing EXL leaves the mode to KSU (R80). -/
theorem mode_of_clearExl {s t : State} (erl : s.cp0.status.getLsbD 2 = false)
    (status : t.cp0.status = s.cp0.status &&& 0xFFFFFFFD) :
    t.mode = if s.cp0.status.extractLsb' 3 2 = 0 then .kernel
      else if s.cp0.status.extractLsb' 3 2 = 1 then .supervisor
      else if s.cp0.status.extractLsb' 3 2 = 2 then .user else .undefined := by
  have exl : (s.cp0.status &&& 0xFFFFFFFD).getLsbD 1 = false := getLsbD_clearExl _ (by decide)
  have erl : (s.cp0.status &&& 0xFFFFFFFD).getLsbD 2 = false :=
    (getLsbD_clearExl _ (by decide)).trans erl
  have ksu : (s.cp0.status &&& 0xFFFFFFFD).extractLsb' 3 2 = s.cp0.status.extractLsb' 3 2 := by
    rw [BitVec.extractLsb'_and]
    exact BitVec.and_allOnes
  rw [mode_eq, status, exl, erl, ksu]
  simp only [Bool.false_eq_true, false_or]

/-- Settles O52: one form of return, its target and its bit chosen by ERL. -/
theorem exceptionReturn : Obligations.ExceptionReturn := by
  intro s usable gives ksu
  have returns {target : Word} {st : BitVec 32} {bit : Nat} {p : State → Prop}
      (eq : s.commitLoad.exceptionReturn = { s.commitLoad with
        cp0 := { s.cp0 with status := st }, pc := target, llbit := false, br := none })
      (bits : ∀ k < 32, st.getLsbD k = (decide (k ≠ bit) && s.cp0.status.getLsbD k))
      (mode : ∀ t : State, t.cp0.status = st → p t) : gives target bit p := by
    refine ⟨_, (withCop0_of usable _).trans (congrArg Host.Outcome.next eq),
      fun r => readGpr_commitLoad s r, rfl, rfl, commitLoad_ld s, rfl, bits, ?_, mode _ rfl⟩
    simp [SameButGpr]
  refine ⟨fun erl => ?error, fun erl => ?plain⟩
  case error =>
    refine returns ?_ (fun _ => getLsbD_clearErl _) fun _ _ => trivial
    rw [State.exceptionReturn, commitLoad_cp0, statusErl, if_pos erl]
  case plain =>
    refine returns ?_ (fun _ => getLsbD_clearExl _) fun _ => mode_of_clearExl erl
    rw [State.exceptionReturn, commitLoad_cp0, statusErl, if_neg (Bool.eq_false_iff.1 erl)]

end Sys2Proof.Machine
end

section
/-! PROOFS. Coprocessor 1 moves, loads, stores and branches: the register and the half a number names, how
an instruction that writes a floating-point register or FCR31 completes, and when CTC1 traps. -/

namespace Sys2Proof.Machine

/-! ### The register and the half a number names (R41, R42) -/

/-- With FR clear, an odd number names the even register below it. -/
theorem evenOf_eq : ∀ i : Reg, evenOf i = if i.getLsbD 0 then i - 1 else i := by decide

section
variable {s t : State}

/-- The register and the bit a 32-bit access starts at, in the terms of the model. -/
theorem fprSlot_eq (s : State) (i : Reg) :
    s.fprSlot i = (s.fprIndex i, if s.upperHalf i then 32 else 0) := by
  rw [State.fprSlot, State.fprIndex, State.upperHalf, State.fr, evenOf_eq]
  cases s.cp0.status.getLsbD 26 <;> cases i.getLsbD 0 <;> rfl

theorem readF32_eq (s : State) (i : Reg) :
    s.readF32 i = (s.readFpr (s.fprSlot i).1).extractLsb' (s.fprSlot i).2 32 := by
  rw [fprSlot_eq, State.readF32, State.readF64]
  cases s.upperHalf i <;> rfl

/-- A floating-point register read depends on the register file alone. -/
theorem readFpr_congr (h : t.fpr = s.fpr) (k : Reg) : t.readFpr k = s.readFpr k := by
  simp [State.readFpr, h]

theorem fprSlot_congr (h : t.cp0 = s.cp0) (i : Reg) : t.fprSlot i = s.fprSlot i := by
  simp [State.fprSlot, h]

theorem writeF32Move_word (s : State) (i : Reg) (v : BitVec 32) :
    ((s.writeF32Move i v).readFpr (s.fprSlot i).1).extractLsb' (s.fprSlot i).2 32 = v := by
  have slot : (s.writeF32Move i v).fprSlot i = s.fprSlot i :=
    fprSlot_congr (by rw [writeF32Move_eq]) i
  rw [← slot, ← readF32_eq, readF32_writeF32Move]

theorem writeF32Move_half (s : State) (i : Reg) (v : BitVec 32) :
    ((s.writeF32Move i v).readFpr (s.fprSlot i).1).extractLsb' (32 - (s.fprSlot i).2) 32 =
      (s.readFpr (s.fprSlot i).1).extractLsb' (32 - (s.fprSlot i).2) 32 := by
  rw [fprSlot_eq, State.writeF32Move]
  cases s.upperHalf i
  · simp [State.writeF64, readFpr_setFpr, State.readF64]
    exact BitVec.extractLsb'_append_eq_left
  · simp [State.writeF64, readFpr_setFpr, State.readF64]
    exact BitVec.extractLsb'_append_eq_right

end

/-! ### How a write of a floating-point register or FCR31 completes (R400) -/

section
variable {s : State} {o : Out} {i : Reg}

/-- Floating-point registers and FCR31 written, the rest settled as after any instruction that is no
branch and no load. -/
theorem completeFp_spec {f : State → State} {fpr : Vector Word 32} {fcr31 : BitVec 32}
    (writes : f s.commitLoad = { s.commitLoad with fpr := fpr, fcr31 := fcr31 }) :
    ∃ t, complete f s = .next t ∧ Advanced s t none ∧
      SameButGpr { s with fpr := fpr, fcr31 := fcr31 } t := by
  rw [complete_next, writes]
  refine ⟨_, rfl, advanced_of (commitLoad_pc s) (commitLoad_br s) (commitLoad_ld s)
    fun r => readGpr_commitLoad s r, ?_⟩
  simp [SameButGpr, advance_eq]

/-- The register file after an instruction that writes it alone is the one of `u`. -/
theorem completeFpr_spec {f : State → State} {u : State}
    (writes : f s.commitLoad = { s.commitLoad with fpr := u.fpr }) :
    ∃ t, complete f s = .next t ∧ Advanced s t none ∧ SameButGpr { s with fpr := t.fpr } t ∧
      ∀ k, t.readFpr k = u.readFpr k := by
  obtain ⟨t, run, advanced, same⟩ := completeFp_spec writes
  have fpr : t.fpr = u.fpr := (congrArg State.fpr same :)
  rw [commitLoad_fcr31] at same
  exact ⟨t, run, advanced, by rw [fpr]; exact same, readFpr_congr fpr⟩

/-- The pending load and a floating-point write do not meet. -/
theorem writeF64_commitLoad (s : State) (i : Reg) (v : Word) :
    s.commitLoad.writeF64 i v = { s.commitLoad with fpr := (s.writeF64 i v).fpr } := by
  rw [commitLoad_eq]; rfl

theorem writeF32Move_commitLoad (s : State) (i : Reg) (v : BitVec 32) :
    s.commitLoad.writeF32Move i v = { s.commitLoad with fpr := (s.writeF32Move i v).fpr } := by
  have half : s.commitLoad.upperHalf i = s.upperHalf i := by rw [commitLoad_eq]; rfl
  rw [State.writeF32Move, State.writeF32Move, half, commitLoad_eq]
  split <;> rfl

theorem writeF64_spec {v w : Word} (run : o = complete (·.writeF64 i w) s) (value : w = v) :
    ∃ t, o = .next t ∧ WroteFpr s t i v := by
  subst value
  obtain ⟨t, next, advanced, same, reads⟩ :=
    completeFpr_spec (f := (·.writeF64 i w)) (writeF64_commitLoad s i w)
  have written (k : Reg) : t.readFpr k = if k = s.fprIndex i then w else s.readFpr k :=
    (reads k).trans (readFpr_setFpr ..)
  exact ⟨t, run.trans next, advanced, (written _).trans (if_pos rfl),
    fun k hk => (written k).trans (if_neg hk), same⟩

theorem writeF32Move_spec {v w : BitVec 32} (run : o = complete (·.writeF32Move i w) s)
    (value : w = v) : ∃ t, o = .next t ∧ WroteHalf s t i v := by
  subst value
  obtain ⟨t, next, advanced, same, reads⟩ :=
    completeFpr_spec (f := (·.writeF32Move i w)) (writeF32Move_commitLoad s i w)
  refine ⟨t, run.trans next, advanced, ?_, ?_, fun k hk => ?_, same⟩
  · rw [reads, writeF32Move_word]
  · rw [reads, writeF32Move_half]
  · rw [reads, writeF32Move_other s i k w (by rwa [fprSlot_eq] at hk)]

end

/-! ### Loads and stores (R401 to R404) -/

/-- A byte of a 32-bit access is a byte of the register it starts in. -/
theorem byteOf_extractLsb' (v : Word) (start : Nat) {k : Nat} (hk : k < 4) :
    Memory.byteOf ((v.extractLsb' start 32).setWidth 64) 4 k = v.extractLsb' (start + 8 * (3 - k)) 8 := by
  refine BitVec.eq_of_getLsbD_eq fun j hj => ?_
  have word : 8 * (4 - 1 - k) + j < 32 := by omega
  have double : 8 * (4 - 1 - k) + j < 64 := by omega
  rw [getLsbD_byteOf _ _ _ hj, BitVec.getLsbD_setWidth, BitVec.getLsbD_extractLsb',
    BitVec.getLsbD_extractLsb']
  simp [word, double, hj, Nat.add_assoc]

/-- Settles O53: each access is one aligned read or write of the bus at the address it maps to. -/
theorem cop1LoadsStores : Obligations.Cop1LoadsStores := by
  intro s ft base imm pa attr usable ea b stores half double
  refine ⟨fun maps => ⟨fun aligned => ?lwc1, fun aligned => ?ldc1⟩,
    fun maps => ⟨fun aligned => ?swc1, fun aligned => ?sdc1⟩⟩
  case lwc1 =>
    refine writeF32Move_spec ((withCop1_of usable _).trans (withAligned_of aligned maps _)) ?_
    rw [State.readBus, join_four, lowWord_eq, BitVec.setWidth_setWidth_of_le _ (by decide),
      BitVec.setWidth_eq]
  case ldc1 =>
    exact writeF64_spec ((withCop1_of usable _).trans (withAligned_of aligned maps _))
      ((join_eight _).trans (BitVec.setWidth_eq _))
  case swc1 =>
    refine completeStore_bytes ((withCop1_of usable _).trans (withAligned_of aligned maps _))
      (by decide) fun k hk => ?_
    rw [readF32_eq]
    exact byteOf_extractLsb' _ _ hk
  case sdc1 =>
    exact completeStore_bytes ((withCop1_of usable _).trans (withAligned_of aligned maps _))
      (by decide) fun _ _ => rfl

/-! ### Moves (R405 to R410) -/

theorem and_ne_zero_iff {n : Nat} (x y : BitVec n) :
    x &&& y ≠ 0 ↔ ∃ k < n, x.getLsbD k = true ∧ y.getLsbD k = true := by
  rw [Ne, BitVec.eq_of_getLsbD_eq_iff]
  simp

/-- Cause E traps always, another cause where its enable is set (R46). -/
theorem fcr31Traps_iff (v : BitVec 32) : fcr31Traps v = true ↔
    v.getLsbD 17 = true ∨ ∃ k < 5, v.getLsbD (12 + k) = true ∧ v.getLsbD (7 + k) = true := by
  rw [fcr31Traps, Bool.or_eq_true, decide_eq_true_iff, and_ne_zero_iff]
  refine or_congr Iff.rfl (exists_congr fun k => and_congr_right fun hk => ?_)
  simp [fcr31Cause, fcr31Enable, hk]

section
variable {s : State} {o : Out} {rt fs : Reg}

theorem writeBack_of {v r : Word} (run : o = writeBack rt v s) (value : v = r) :
    ∃ t, o = .next t ∧ WroteGpr s t rt r := run ▸ writeBack_eq value

variable (usable : s.copUsable1 = true)
include usable

/-- A move to FCR31 by whether the value written traps. -/
theorem ctc1_fcr31_spec {v : BitVec 32} (value : lowWord (s.readGpr rt) &&& fcr31Mask = v) :
    (fcr31Traps v = false → ∃ t, exec (.ctc1 rt 31) s = .next t ∧ Advanced s t none ∧
      SameButGpr { s with fcr31 := v } t) ∧
    (fcr31Traps v = true → ∃ t, exec (.ctc1 rt 31) s = .next t ∧
      Raised { s with fcr31 := v } t .floatingPoint 0 none) := by
  have run : exec (.ctc1 rt 31) s = if fcr31Traps v then raise .floatingPoint (s.setFcr31 v)
      else complete (·.setFcr31 v) s := value ▸ withCop1_of usable _
  rw [run]
  refine ⟨fun passes => ?_, fun traps => ?_⟩
  · rw [passes]
    exact completeFp_spec (fpr := s.fpr) (by rw [← commitLoad_fpr]; rfl)
  · rw [traps]
    exact raise_spec ..

/-- No other control register is written. -/
theorem ctc1_other_spec (other : fs ≠ 31) :
    ∃ t, exec (.ctc1 rt fs) s = .next t ∧ Advanced s t none ∧ SameButGpr s t := by
  have run : exec (.ctc1 rt fs) s = complete id s := (withCop1_of usable _).trans (if_neg other)
  rw [run]
  exact completeId_spec s

end

/-- Settles O54: one register write each, at once; CFC1 of a number that is no register reads some word,
and CTC1 is split by its number and by whether its value traps. -/
theorem cop1Moves : Obligations.Cop1Moves := by
  intro s rt fs usable
  simp only [← lowWord_eq, ← readF32_eq, ← fcr31Traps_iff, Bool.not_eq_true]
  have cfc1 {v : BitVec 32} (value : s.readFcr fs = v) :
      ∃ t, exec (.cfc1 rt fs) s = .next t ∧ WroteGpr s t rt (v.signExtend 64) :=
    writeBack_of (withCop1_of usable _) (congrArg sext32 value)
  refine ⟨rfl, writeBack_of (withCop1_of usable _) rfl,
    fun h64 => writeBack_of ((withCop1_of usable _).trans (withOps64_of h64 _)) rfl,
    writeF32Move_spec (withCop1_of usable _) rfl,
    fun h64 => writeF64_spec ((withCop1_of usable _).trans (withOps64_of h64 _)) rfl,
    ?revision, ?status, fun _ _ => ⟨_, cfc1 rfl⟩, ?passes, ?traps, ctc1_other_spec usable⟩
  case revision => rintro rfl; exact cfc1 rfl
  case status => rintro rfl; exact cfc1 rfl
  case passes => rintro rfl; exact (ctc1_fcr31_spec usable rfl).1
  case traps => rintro rfl; exact (ctc1_fcr31_spec usable rfl).2

/-! ### Branches (R411 to R414) -/

/-- Settles O55: the two forms of ending of the integer branches, on the condition bit and its negation. -/
theorem cop1Branches : Obligations.Cop1Branches := by
  intro s imm usable c gives
  have plain {i : Instr} {taken : Bool} (run : exec i s = withCop1 s (condBranch taken id imm s)) :
      gives i taken fun t => Branched s t none (s.pc + 8) := by
    have ends := condBranch_spec (taken := taken) (imm := imm) (completeBranch_spec (s := s)) Iff.rfl
    rwa [← run.trans (withCop1_of usable _), Bool.not_eq_true] at ends
  have likely {i : Instr} {taken : Bool}
      (run : exec i s = withCop1 s (condBranchLikely taken id imm s)) :
      gives i taken fun t => Nullified s t none := by
    have ends := condBranchLikely_spec (taken := taken) (imm := imm) (completeBranch_spec (s := s))
      (completeNullify_spec s) Iff.rfl
    rwa [← run.trans (withCop1_of usable _), Bool.not_eq_true] at ends
  exact ⟨plain rfl, plain rfl, likely rfl, likely rfl⟩

end Sys2Proof.Machine
end

section
/-! PROOFS. Floating-point numbers: every operation on zero and normal operands is one rounding of its exact
result, which an exact result that is a number of the format comes through unchanged. -/

namespace Sys2Proof.Machine

/-! ### Zero and normal operands (R431, R436) -/

/-- A zero or a normal number: an operand of the exact subset. -/
abbrev Ordinary (f : FpFormat) (v : Word) : Prop := fpClass f v = .zero ∨ fpClass f v = .normal

section
variable {f : FpFormat} {env : FpEnv} {a b : Word}

theorem fpNumber_of_zero (h : fpClass f a = .zero) : fpNumber f a = 0 := by
  rw [fpNumber_eq, fpMagnitude_zero f a h, mul_zero]

theorem fpNumber_ne_zero (h : fpClass f a = .normal) : fpNumber f a ≠ 0 := by
  rw [← abs_pos, abs_fpNumber]
  exact fpMagnitude_pos f a h

/-- Of the operands of the exact subset, the zeros are those of value 0. -/
theorem fpClass_zero_iff_fpNumber (ha : Ordinary f a) :
    fpClass f a = .zero ↔ fpNumber f a = 0 :=
  ⟨fpNumber_of_zero, fun h => ha.resolve_right fun normal => fpNumber_ne_zero normal h⟩

theorem fpClass_normal_of_ne_zero (ha : Ordinary f a) (h : fpNumber f a ≠ 0) : fpClass f a = .normal :=
  ha.resolve_left fun zero => h (fpNumber_of_zero zero)

/-- A positive number has its sign bit clear. -/
theorem fpSign_of_nonneg (h : fpClass f a = .normal) (nonneg : 0 ≤ fpNumber f a) : fpSign f a = false := by
  rw [← Bool.not_eq_true, fpNumber_sign f a h]
  exact not_lt.2 nonneg

/-- SUB negates its second operand, which stays a zero or a normal number. -/
theorem ordinary_fpWithSign {neg : Bool} (h : Ordinary f a) : Ordinary f (fpWithSign f a neg) := by
  rwa [Ordinary, fpWithSign_class]

/-! ### Every operation as one rounding of its exact result (R440 to R444, R448 to R459) -/

/-- `r` answers the exact result `q`, where it is not zero, by one rounding of it. -/
def RoundedOnce (f : FpFormat) (env : FpEnv) (q : ℝ) (r : FpResult) : Prop :=
  q ≠ 0 → ∃ neg n, FpOutcome f env q neg n r

/-- An exact magnitude rounded under its sign. -/
theorem roundedOnce_of_exact {q : ℝ} {m : ℕ} {e : ℤ} (hm : 0 < m) (hq : (m : ℝ) * 2 ^ e = |q|)
    {r : FpResult} (run : r = fpRound f env (decide (q < 0)) m e false) : RoundedOnce f env q r :=
  fun _ => run ▸ fpRound_outcome f env m e q hm hq

theorem fpAdd_rounds (ha : Ordinary f a) (hb : Ordinary f b) :
    RoundedOnce f env (fpNumber f a + fpNumber f b) (fpAdd f env a b) := by
  rw [fpAdd_ordinary f env a b ha hb]
  obtain ⟨zero, -⟩ | ⟨m, e, hm, hq, run⟩ := fpAddNumbers_spec f env a b
  · exact fun h => absurd zero h
  · exact roundedOnce_of_exact hm hq run

theorem fpSub_rounds (ha : Ordinary f a) (hb : Ordinary f b) :
    RoundedOnce f env (fpNumber f a - fpNumber f b) (fpSub f env a b) := by
  rw [sub_eq_add_neg, ← fpWithSign_not]
  exact fpAdd_rounds ha (ordinary_fpWithSign hb)

theorem fpMul_rounds (ha : Ordinary f a) (hb : Ordinary f b) :
    RoundedOnce f env (fpNumber f a * fpNumber f b) (fpMul f env a b) := by
  obtain ⟨zero, -⟩ | ⟨m, e, hm, hq, run⟩ := fpMul_ordinary f env a b ha hb
  · exact fun h => absurd zero h
  · exact roundedOnce_of_exact hm hq run

/-- The sign a rounding is told, put back on the magnitude, is the number. -/
theorem signed_abs (q : ℝ) : (if decide (q < 0) = true then -|q| else |q|) = q := by
  by_cases h : q < 0
  · rw [if_pos (decide_eq_true h), abs_of_neg h, neg_neg]
  · rw [if_neg (by simpa using h), abs_of_nonneg (not_lt.1 h)]

theorem fpDiv_rounds (ha : Ordinary f a) (hb : Ordinary f b) (divisor : fpNumber f b ≠ 0) :
    RoundedOnce f env (fpNumber f a / fpNumber f b) (fpDiv f env a b) := by
  intro hq
  obtain ⟨zero, -⟩ | ⟨m, e, sticky, hm, lo, hi, inexact, bits, run⟩ :=
    fpDiv_ordinary f env a b ha (fpClass_normal_of_ne_zero hb divisor)
  · exact absurd (by rw [zero, zero_div]) hq
  · obtain ⟨n, outcome⟩ := fpRound_spec f env _ m e sticky _ hm lo hi inexact fun _ => bits
    rw [signed_abs, ← run] at outcome
    exact ⟨_, n, outcome⟩

theorem fpSqrt_rounds (ha : Ordinary f a) (nonneg : 0 ≤ fpNumber f a) :
    RoundedOnce f env (Real.sqrt (fpNumber f a)) (fpSqrt f env a) := by
  intro hq
  have normal := fpClass_normal_of_ne_zero ha fun zero => hq (by rw [zero, Real.sqrt_zero])
  exact fpSqrt_normal f env a normal (fpSign_of_nonneg normal nonneg)

theorem fpConvert_rounds {g : FpFormat} (ha : Ordinary g a) :
    RoundedOnce f env (fpNumber g a) (fpConvert g f env a) :=
  fun hq => fpConvert_ordinary g f env a (fpClass_normal_of_ne_zero ha hq)

theorem fpOfInt_rounds (i : ℤ) : RoundedOnce f env i (fpOfInt f env i) :=
  fun hq => fpOfInt_spec f env i (Int.cast_ne_zero.1 hq)

theorem fpOfWord_rounds (a : Word) :
    RoundedOnce f env ((a.setWidth 32).toInt : ℝ) (fpOfWord f env a) := by
  rw [← lowWord_eq]
  exact fpOfInt_rounds _

/-- A doubleword in the range of R434(e) is converted as any integer. -/
theorem fpOfLong_inRange (lo : -2 ^ 55 ≤ a.toInt) (hi : a.toInt < 2 ^ 55) :
    fpOfLong f env a = fpOfInt f env a.toInt := by
  rw [fpOfLong, if_neg]
  simp only [outsideSigned, decide_eq_true_eq]
  omega

/-- A conversion to fixed point answers the rounded integer where it is in the range (R434). -/
theorem fpToFixed_spec (rm : RoundMode) (lo hi : ℤ) (hl : lo ≤ 0) (hh : 0 ≤ hi)
    (ha : Ordinary f a) :
    ∃ n : ℤ, FpRoundsInt rm (fpNumber f a) n ∧
      (lo ≤ n → n ≤ hi → fpToFixed f rm lo hi a =
        .value (BitVec.ofInt 64 n) (if (n : ℝ) = fpNumber f a then 0 else 1)) ∧
      (n < lo ∨ hi < n → fpToFixed f rm lo hi a = .unimplemented) := by
  rcases ha with zero | normal
  · have value := fpNumber_of_zero zero
    refine ⟨0, ?_, fun _ _ => ?_, fun out => by omega⟩
    · rw [value]; cases rm <;> simp [FpRoundsInt]
    · rw [fpToFixed, zero, value]; simp
  · obtain ⟨rounds, inexact⟩ := fpToInt_spec f rm a
    refine ⟨_, rounds, fun h₁ h₂ => ?_, fun out => ?_⟩
    · rw [fpToFixed, normal]
      dsimp only
      rw [if_neg (by omega)]
      by_cases same : ((fpToInt f rm a).1 : ℝ) = fpNumber f a
      · rw [if_pos same, if_neg (by simpa [same] using inexact)]
      · rw [if_neg same, if_pos (inexact.2 same)]; rfl
    · rw [fpToFixed, normal]
      exact if_pos out

end

/-- Settles O59: each operation is one rounding of its exact result, which `fpRound_spec` describes. -/
theorem fpRounding : Obligations.FpRounding := by
  intro f g env rm a b ordinary num rounds fixed
  refine ⟨fun ha hb => ⟨fpAdd_rounds ha hb, fpSub_rounds ha hb, fpMul_rounds ha hb, fpDiv_rounds ha hb⟩,
    fun ha => ⟨fpSqrt_rounds ha, ?word, ?long⟩, fpConvert_rounds, fpOfWord_rounds a,
    fun lo hi => ?ofLong⟩
  case word => exact fpToFixed_spec rm _ _ (by norm_num) (by norm_num) ha
  case long => exact fpToFixed_spec rm _ _ (by norm_num) (by norm_num) ha
  case ofLong =>
    rw [fpOfLong_inRange lo hi]
    exact fpOfInt_rounds _

/-! ### An exact result that is a number of the format (R436) -/

section
variable {f : FpFormat} {env : FpEnv} {a b c : Word}

/-- A normal number is on the grid it would be rounded to. -/
theorem fpGrid_fpNumber (hc : fpClass f c = .normal) : FpGrid f (fpNumber f c) := by
  obtain ⟨low, high⟩ := fpMant_normal f c hc
  exact ⟨fpMant f c, fpScale f c, low, high, abs_fpNumber f c⟩

/-- A number of the grid rounds to itself under every mode. -/
theorem FpRounds.eq_of_grid {rm : RoundMode} {q n : ℝ} (h : FpRounds f rm q n) (hq : FpGrid f q) :
    n = q := by
  obtain ⟨-, sign, best⟩ := h
  cases rm with
  | nearest =>
    have near := (best q hq).1
    rw [sub_self, abs_zero, abs_nonpos_iff, sub_eq_zero] at near
    exact near.symm
  | towardZero =>
    obtain ⟨le, greatest⟩ := best
    rcases abs_eq_abs.1 (le_antisymm le (greatest q hq le_rfl)) with same | opposite
    · exact same
    · rw [opposite] at sign
      exact absurd sign (not_lt.2 (by nlinarith [mul_self_nonneg q]))
  | up => exact le_antisymm (best.2 q hq le_rfl) best.1
  | down => exact le_antisymm best.1 (best.2 q hq le_rfl)

/-- A normal number is neither tiny nor an overflow (R433, R435). -/
theorem abs_fpNumber_bounds (hc : fpClass f c = .normal) :
    fpLeast f ≤ |fpNumber f c| ∧ |fpNumber f c| ≤ fpGreatest f := by
  obtain ⟨low, high⟩ := fpMant_normal f c hc
  obtain ⟨least, greatest⟩ := fpScale_bounds f c hc
  have lowR : (2 : ℝ) ^ f.fracBits ≤ fpMant f c := by exact_mod_cast low
  have highR : (fpMant f c : ℝ) + 1 ≤ 2 ^ (f.fracBits + 1) := by exact_mod_cast high
  have scale {i j : ℤ} (h : i ≤ j) : (2 : ℝ) ^ i ≤ 2 ^ j := zpow_le_zpow_right₀ one_le_two h
  rw [abs_fpNumber, fpMagnitude, fpLeast, fpGreatest]
  constructor
  · calc (2 : ℝ) ^ (1 - (f.bias : ℤ)) ≤ 2 ^ ((f.fracBits : ℤ) + fpScale f c) := scale (by omega)
      _ = 2 ^ f.fracBits * 2 ^ fpScale f c := by rw [zpow_add₀ two_ne_zero, zpow_natCast]
      _ ≤ fpMant f c * 2 ^ fpScale f c := by gcongr
  · have bound : (fpMant f c : ℝ) ≤ 2 ^ (f.fracBits + 1) - 1 := by linarith
    exact mul_le_mul bound (scale (by omega)) (by positivity) (le_trans (by positivity) bound)

/-- A normal number is the only pattern of its value. -/
theorem eq_of_fpNumber_eq {v : Word} (hv : fpClass f v = .normal) (hc : fpClass f c = .normal)
    (wv : f = .single → v.toNat < 2 ^ 32) (wc : f = .single → c.toNat < 2 ^ 32)
    (h : fpNumber f v = fpNumber f c) : v = c := by
  have sign : fpSign f v = fpSign f c := by
    rw [Bool.eq_iff_iff, fpNumber_sign f v hv, fpNumber_sign f c hc, h]
  have magnitude : fpMagnitude f v = fpMagnitude f c := by rw [← abs_fpNumber, ← abs_fpNumber, h]
  obtain ⟨lv, uv⟩ := fpMant_normal f v hv
  obtain ⟨lc, uc⟩ := fpMant_normal f c hc
  obtain ⟨mant, scale⟩ := normal_unique f.fracBits _ _ _ _ lv uv lc uc magnitude
  have ev := ((fpClass_normal f v).1 hv).1
  have ec := ((fpClass_normal f c).1 hc).1
  rw [fpMant, fpMant, if_neg ev, if_neg ec] at mant
  rw [fpScale, fpScale, if_neg ev, if_neg ec] at scale
  rw [← fpPack_fields f v wv, ← fpPack_fields f c wc, sign, show fpExp f v = fpExp f c by omega,
    show fpFrac f v = fpFrac f c by omega]

/-- One rounding of a normal number is that number, with no exception. -/
theorem RoundedOnce.eq_value {r : FpResult} {q : ℝ} (h : RoundedOnce f env q r)
    (wc : f = .single → c.toNat < 2 ^ 32) (hc : fpClass f c = .normal) (hq : fpNumber f c = q) :
    r = .value c 0 := by
  subst hq
  obtain ⟨neg, n, outcome⟩ := h (fpNumber_ne_zero hc)
  obtain ⟨least, greatest⟩ := abs_fpNumber_bounds hc
  have hn : n = fpNumber f c := outcome.rounds.eq_of_grid (fpGrid_fpNumber hc)
  obtain ⟨v, x, run, hv, value, wv, noException, -⟩ := outcome.normal least (hn ▸ greatest)
  rw [run, noException hn, eq_of_fpNumber_eq hv hc wv wc (value.trans hn)]

/-! ### Zero results (R435) -/

/-- An exact magnitude with a significand is not zero. -/
theorem ne_zero_of_exact {q : ℝ} {m : ℕ} {e : ℤ} (hm : 0 < m) (hq : (m : ℝ) * 2 ^ e = |q|) :
    q ≠ 0 := by
  rw [← abs_pos, ← hq]
  positivity

theorem fpAdd_zero (ha : Ordinary f a) (hb : Ordinary f b) (h : fpNumber f a + fpNumber f b = 0) :
    fpAdd f env a b = .value (fpZeroOf f
      (if fpSign f a = fpSign f b then fpSign f a else decide (env.rm = .down))) 0 := by
  rw [fpAdd_ordinary f env a b ha hb]
  obtain ⟨-, run⟩ | ⟨m, e, hm, hq, -⟩ := fpAddNumbers_spec f env a b
  · exact run
  · exact absurd h (ne_zero_of_exact hm hq)

theorem fpSub_zero (ha : Ordinary f a) (hb : Ordinary f b) (h : fpNumber f a - fpNumber f b = 0) :
    fpSub f env a b = .value (fpZeroOf f
      (if fpSign f a ≠ fpSign f b then fpSign f a else decide (env.rm = .down))) 0 := by
  have negated := (fpWithSign_fields f b (!fpSign f b)).1
  rw [sub_eq_add_neg, ← fpWithSign_not] at h
  rw [fpSub, fpAdd_zero ha (ordinary_fpWithSign hb) h, negated]
  cases fpSign f a <;> cases fpSign f b <;> rfl

theorem fpMul_zero (ha : Ordinary f a) (hb : Ordinary f b) (h : fpNumber f a * fpNumber f b = 0) :
    fpMul f env a b = .value (fpZeroOf f (fpSign f a ^^ fpSign f b)) 0 := by
  obtain ⟨-, run⟩ | ⟨m, e, hm, hq, -⟩ := fpMul_ordinary f env a b ha hb
  · exact run
  · exact absurd h (ne_zero_of_exact hm hq)

/-! ### The answers by the class of one operand (R444, R445, R447, R456, R457) -/

theorem fpSqrt_zero (ha : fpClass f a = .zero) :
    fpSqrt f env a = .value (fpZeroOf f (fpSign f a)) 0 := by
  simp [fpSqrt, fpCheck1, fpIsNan, ha]

theorem fpConvert_zero {g : FpFormat} (ha : fpClass g a = .zero) :
    fpConvert g f env a = .value (fpZeroOf f (fpSign g a)) 0 := by
  simp [fpConvert, fpCheck1, fpIsNan, ha]

theorem fpDiv_zero (ha : fpClass f a = .zero) (hb : fpClass f b = .normal) :
    fpDiv f env a b = .value (fpZeroOf f (fpSign f a ^^ fpSign f b)) 0 := by
  simp [fpDiv, fpCheck2, fpIsNan, ha, hb]

theorem fpSetSign_ordinary (neg : Bool) (ha : Ordinary f a) :
    fpSetSign f env neg a = .value (fpWithSign f a neg) 0 := by
  rcases ha with ha | ha <;> simp [fpSetSign, ha]

theorem fpNumber_fpWithSign (neg : Bool) :
    fpNumber f (fpWithSign f a neg) = if neg then -|fpNumber f a| else |fpNumber f a| := by
  rw [fpNumber_signed, fpWithSign_magnitude, (fpWithSign_fields f a neg).1, abs_fpNumber]

/-- An integer rounds to itself under every mode. -/
theorem fpRoundsInt_self (rm : RoundMode) (n : ℤ) : FpRoundsInt rm n n := by
  cases rm <;> simp [FpRoundsInt, mul_self_nonneg]

/-- A conversion to fixed point of an integer in the range answers it. -/
theorem fpToFixed_exact {rm : RoundMode} {lo hi n : ℤ} (hl : lo ≤ 0) (hh : 0 ≤ hi)
    (ha : Ordinary f a) (hn : fpNumber f a = n)
    (low : lo ≤ n) (high : n ≤ hi) : fpToFixed f rm lo hi a = .value (BitVec.ofInt 64 n) 0 := by
  obtain ⟨k, rounds, run, -⟩ := fpToFixed_spec rm lo hi hl hh ha
  rw [hn] at rounds run
  obtain rfl := fpRoundsInt_unique rounds (fpRoundsInt_self rm n)
  rw [run low high, if_pos rfl]

/-- The square root of the square of a number with the sign bit clear. -/
theorem sqrt_fpNumber (hs : fpSign f c = false) (h : fpNumber f c * fpNumber f c = fpNumber f a) :
    fpNumber f c = Real.sqrt (fpNumber f a) := by
  have nonneg : 0 ≤ fpNumber f c := by
    rw [fpNumber_signed, hs]
    exact fpMagnitude_nonneg f c
  rw [← h, Real.sqrt_mul_self nonneg]

end

/-- Settles O58: a result that is a number of the format is one rounding that changes nothing, and the
zero results are read off the operations. -/
theorem fpExact : Obligations.FpExact := by
  intro f env a b ordinary num zero is product
  have unchanged {q : ℝ} {r : FpResult} (h : RoundedOnce f env q r) : is r q :=
    fun c wc hc hq => h.eq_value wc hc hq
  refine ⟨fun ha hb => ⟨unchanged (fpAdd_rounds ha hb), unchanged (fpSub_rounds ha hb),
      unchanged (fpMul_rounds ha hb), fpAdd_zero ha hb, fpSub_zero ha hb, fpMul_zero ha hb,
      fun divisor => ⟨unchanged (fpDiv_rounds ha hb divisor), fun h => ?divZero⟩⟩,
    fun ha => ⟨fun c wc hc hs h => ?sqrt, fun h => fpSqrt_zero ((fpClass_zero_iff_fpNumber ha).2 h),
      fun rm n hn => ⟨fun low high => ?word, fun low high => ?long⟩, ?abs, ?neg⟩,
    fun g ha => ⟨unchanged (fpConvert_rounds ha),
      fun h => fpConvert_zero ((fpClass_zero_iff_fpNumber ha).2 h)⟩,
    unchanged (fpOfWord_rounds a), fun h => ?ofWordZero,
    fun low high => ⟨unchanged ?ofLong, fun h => ?ofLongZero⟩⟩
  case divZero => exact fpDiv_zero ((fpClass_zero_iff_fpNumber ha).2 h) (fpClass_normal_of_ne_zero hb divisor)
  case sqrt => exact (fpSqrt_rounds ha (h.le.trans' (mul_self_nonneg _))).eq_value wc hc (sqrt_fpNumber hs h)
  case word => exact fpToFixed_exact (by norm_num) (by norm_num) ha hn low (by omega)
  case long => exact fpToFixed_exact (by norm_num) (by norm_num) ha hn low high
  case abs =>
    exact ⟨_, fpSetSign_ordinary false ha, fpNumber_fpWithSign false, (fpWithSign_fields f a _).1⟩
  case neg => exact ⟨_, fpSetSign_ordinary _ ha, fpWithSign_not f a, (fpWithSign_fields f a _).1⟩
  case ofWordZero =>
    have word : a.extractLsb' 0 32 = 0 := (lowWord_eq a).trans h
    rw [fpOfWord, word]
    rfl
  case ofLong =>
    rw [fpOfLong_inRange low high]
    exact fpOfInt_rounds _
  case ofLongZero =>
    rw [fpOfLong_inRange low high, h]
    rfl

end Sys2Proof.Machine
end

section
/-! PROOFS. Special floating-point operands: the checks that answer denormals and NaNs, and each operation on
infinities and zero divisors. -/

namespace Sys2Proof.Machine

/-! ### The checks of the operands (R432, R434(a), R435) -/

/-- A zero, a normal or an infinity: an operand that no check of the operands answers. -/
def FpValued (f : FpFormat) (v : Word) : Prop :=
  fpClass f v = .zero ∨ fpClass f v = .normal ∨ fpClass f v = .infinity

section
variable {f g : FpFormat} {env : FpEnv} {a b : Word} {k r : FpResult}

theorem fpValued_of_ordinary (h : Ordinary f a) : FpValued f a := h.imp_right .inl

theorem fpValued_of_infinity (h : fpClass f a = .infinity) : FpValued f a := .inr (.inr h)

theorem fpNan_quiet (env : FpEnv) (a b : Word) :
    ∃ v, fpNan f env false a b = .value v 0 ∧ fpClass f v = .quietNan :=
  ⟨_, rfl, (fpQuietNan_spec f _ _).1⟩

theorem fpCheck2_denormal (h : fpClass f a = .denormal ∨ fpClass f b = .denormal) :
    fpCheck2 f env a b k = .unimplemented := if_pos h

theorem fpCheck2_signalling (ha : fpClass f a ≠ .denormal) (hb : fpClass f b ≠ .denormal)
    (h : fpClass f a = .signallingNan ∨ fpClass f b = .signallingNan) :
    fpCheck2 f env a b k = fpInvalid f := by
  have nan : (fpIsNan f a || fpIsNan f b) = true := by rcases h with h | h <;> simp [fpIsNan, h]
  have signalling : (fpClass f a = .signallingNan || fpClass f b = .signallingNan) = true := by simpa using h
  rw [fpCheck2, if_neg (not_or.2 ⟨ha, hb⟩), if_pos nan, signalling]
  rfl

theorem fpCheck2_quiet (ha : fpClass f a ≠ .denormal) (hb : fpClass f b ≠ .denormal)
    (sa : fpClass f a ≠ .signallingNan) (sb : fpClass f b ≠ .signallingNan)
    (h : fpClass f a = .quietNan ∨ fpClass f b = .quietNan) :
    ∃ v, fpCheck2 f env a b k = .value v 0 ∧ fpClass f v = .quietNan := by
  have nan : (fpIsNan f a || fpIsNan f b) = true := by rcases h with h | h <;> simp [fpIsNan, h]
  have quiet : (fpClass f a = .signallingNan || fpClass f b = .signallingNan) = false := by simp [sa, sb]
  rw [fpCheck2, if_neg (not_or.2 ⟨ha, hb⟩), if_pos nan, quiet]
  exact fpNan_quiet env a b

theorem fpCheck2_valued (ha : FpValued f a) (hb : FpValued f b) : fpCheck2 f env a b k = k := by
  have passes {v : Word} (h : FpValued f v) : fpClass f v ≠ .denormal ∧ fpIsNan f v = false := by
    rcases h with h | h | h <;> simp [fpIsNan, h]
  obtain ⟨da, na⟩ := passes ha
  obtain ⟨db, nb⟩ := passes hb
  rw [fpCheck2, if_neg (not_or.2 ⟨da, db⟩), na, nb]
  rfl

theorem fpCheck1_denormal (h : fpClass g a = .denormal) : fpCheck1 g f env a k = .unimplemented :=
  if_pos h

theorem fpCheck1_signalling (h : fpClass g a = .signallingNan) : fpCheck1 g f env a k = fpInvalid f := by
  simp [fpCheck1, fpIsNan, fpNan, h]

theorem fpCheck1_quiet (h : fpClass g a = .quietNan) :
    ∃ v, fpCheck1 g f env a k = .value v 0 ∧ fpClass f v = .quietNan := by
  simpa [fpCheck1, fpIsNan, h] using fpNan_quiet env a a

theorem fpCheck1_valued (h : FpValued g a) : fpCheck1 g f env a k = k := by
  rcases h with h | h | h <;> simp [fpCheck1, fpIsNan, h]

/-! ### Which operations check which operands (R440 to R459) -/

/-- Every operation on two operands checks them first; SUB checks its second one negated, which is of
the same class. -/
theorem twoOperands_checked
    (h : r ∈ [fpAdd f env a b, fpSub f env a b, fpMul f env a b, fpDiv f env a b]) :
    ∃ c k, fpClass f c = fpClass f b ∧ r = fpCheck2 f env a c k := by
  simp only [List.mem_cons, List.not_mem_nil, or_false] at h
  obtain rfl | rfl | rfl | rfl := h
  · exact ⟨b, _, rfl, rfl⟩
  · exact ⟨_, _, fpWithSign_class f b _, rfl⟩
  · exact ⟨b, _, rfl, rfl⟩
  · exact ⟨b, _, rfl, rfl⟩

/-- An operation on one operand checks it, or sets its sign. -/
theorem oneOperand_cases (h : r ∈ [fpSqrt f env a, fpAbs f env a, fpNeg f env a]) :
    (∃ k, r = fpCheck1 f f env a k) ∨ ∃ neg, r = fpSetSign f env neg a := by
  simp only [List.mem_cons, List.not_mem_nil, or_false] at h
  obtain rfl | rfl | rfl := h
  · exact .inl ⟨_, rfl⟩
  · exact .inr ⟨false, rfl⟩
  · exact .inr ⟨_, rfl⟩

theorem fpSetSign_denormal {neg : Bool} (h : fpClass f a = .denormal) :
    fpSetSign f env neg a = .unimplemented := if_pos h

theorem fpSetSign_signalling {neg : Bool} (h : fpClass f a = .signallingNan) :
    fpSetSign f env neg a = fpInvalid f := by simp [fpSetSign, h]

/-- A quiet NaN takes the sign, and a payload of its own. -/
theorem fpSetSign_quiet {neg : Bool} (h : fpClass f a = .quietNan) :
    fpSetSign f env neg a = .value (fpQuietNan f neg (Config.nanPayload env.draw a a)) 0 := by
  simp [fpSetSign, h]

theorem fpSign_fpSetSign_quiet {neg : Bool} {v : Word} {x : FpExceptions} (h : fpClass f a = .quietNan)
    (run : fpSetSign f env neg a = .value v x) : fpSign f v = neg := by
  rw [fpSetSign_quiet h] at run
  cases run
  exact (fpQuietNan_spec f neg _).2

theorem fpSetSign_infinity {neg : Bool} (h : fpClass f a = .infinity) :
    fpSetSign f env neg a = .value (fpInfinity f neg) 0 := by
  simp [fpSetSign, h, fpWithSign_infinity h]

/-- A conversion to fixed point answers zeros and normal numbers only (R434). -/
theorem fpToFixed_unimplemented {rm : RoundMode} {lo hi : ℤ} (zero : fpClass g a ≠ .zero)
    (normal : fpClass g a ≠ .normal) : fpToFixed g rm lo hi a = .unimplemented := by
  unfold fpToFixed
  cases h : fpClass g a with
  | zero => exact absurd h zero
  | normal => exact absurd h normal
  | denormal | infinity | quietNan | signallingNan => rfl

/-- Both conversions to fixed point. -/
theorem fixed_unimplemented {rm : RoundMode} (zero : fpClass g a ≠ .zero) (normal : fpClass g a ≠ .normal)
    (h : r ∈ [fpToWord g rm a, fpToLong g rm a]) : r = .unimplemented := by
  simp only [List.mem_cons, List.not_mem_nil, or_false] at h
  obtain rfl | rfl := h <;> exact fpToFixed_unimplemented zero normal

theorem fpOfLong_outOfRange (h : ¬ (-2 ^ 55 ≤ a.toInt ∧ a.toInt < 2 ^ 55)) :
    fpOfLong f env a = .unimplemented := by
  rw [fpOfLong, if_pos]
  simp only [outsideSigned, decide_eq_true_eq]
  omega

/-! ### Infinities and zero divisors (R435) -/

theorem fpClass_ne_infinity (h : Ordinary f a) : fpClass f a ≠ .infinity := by
  rcases h with h | h <;> simp [h]

theorem fpClass_ne_zero (h : fpClass f a = .normal ∨ fpClass f a = .infinity) : fpClass f a ≠ .zero := by
  rcases h with h | h <;> simp [h]

theorem fpAdd_infinity_left (ha : fpClass f a = .infinity)
    (hb : Ordinary f b ∨ fpClass f b = .infinity ∧ fpSign f a = fpSign f b) :
    fpAdd f env a b = .value (fpInfinity f (fpSign f a)) 0 := by
  have valued : FpValued f b := hb.elim fpValued_of_ordinary fun h => fpValued_of_infinity h.1
  have compatible : ¬ (fpClass f b = .infinity ∧ fpSign f a ≠ fpSign f b) := fun opposite =>
    hb.elim (fun finite => fpClass_ne_infinity finite opposite.1) fun alike => opposite.2 alike.2
  rw [fpAdd, fpCheck2_valued (fpValued_of_infinity ha) valued, if_pos ha, if_neg compatible]

theorem fpAdd_infinity_right (ha : Ordinary f a) (hb : fpClass f b = .infinity) :
    fpAdd f env a b = .value (fpInfinity f (fpSign f b)) 0 := by
  rw [fpAdd, fpCheck2_valued (fpValued_of_ordinary ha) (fpValued_of_infinity hb),
    if_neg (fpClass_ne_infinity ha), if_pos hb]

theorem fpAdd_opposite_infinities (ha : fpClass f a = .infinity) (hb : fpClass f b = .infinity)
    (h : fpSign f a ≠ fpSign f b) : fpAdd f env a b = fpInvalid f := by
  rw [fpAdd, fpCheck2_valued (fpValued_of_infinity ha) (fpValued_of_infinity hb), if_pos ha,
    if_pos ⟨hb, h⟩]

/-- The sign a subtraction adds with differs from the one it reads. -/
theorem fpSign_eq_negated_iff :
    fpSign f a = fpSign f (fpWithSign f b (!fpSign f b)) ↔ fpSign f a ≠ fpSign f b := by
  rw [(fpWithSign_fields f b _).1]
  exact Bool.eq_not

theorem fpSub_infinity_left (ha : fpClass f a = .infinity)
    (hb : Ordinary f b ∨ fpClass f b = .infinity ∧ fpSign f a ≠ fpSign f b) :
    fpSub f env a b = .value (fpInfinity f (fpSign f a)) 0 :=
  fpAdd_infinity_left ha (by rwa [Ordinary, fpWithSign_class, fpSign_eq_negated_iff])

theorem fpSub_infinity_right (ha : Ordinary f a) (hb : fpClass f b = .infinity) :
    fpSub f env a b = .value (fpInfinity f (!fpSign f b)) 0 := by
  rw [fpSub, fpAdd_infinity_right ha (by rwa [fpWithSign_class]), (fpWithSign_fields f b _).1]

theorem fpSub_alike_infinities (ha : fpClass f a = .infinity) (hb : fpClass f b = .infinity)
    (h : fpSign f a = fpSign f b) : fpSub f env a b = fpInvalid f :=
  fpAdd_opposite_infinities ha (by rwa [fpWithSign_class])
    (by rw [Ne, fpSign_eq_negated_iff]; exact not_not.2 h)

theorem fpMul_infinity (ha : fpClass f a = .normal ∨ fpClass f a = .infinity)
    (hb : fpClass f b = .normal ∨ fpClass f b = .infinity)
    (h : fpClass f a = .infinity ∨ fpClass f b = .infinity) :
    fpMul f env a b = .value (fpInfinity f (fpSign f a ^^ fpSign f b)) 0 := by
  rw [fpMul, fpCheck2_valued (.inr ha) (.inr hb), if_pos h,
    if_neg (not_or.2 ⟨fpClass_ne_zero ha, fpClass_ne_zero hb⟩)]

theorem fpMul_infinity_zero (ha : FpValued f a) (hb : FpValued f b)
    (h : fpClass f a = .infinity ∨ fpClass f b = .infinity)
    (zero : fpClass f a = .zero ∨ fpClass f b = .zero) : fpMul f env a b = fpInvalid f := by
  rw [fpMul, fpCheck2_valued ha hb, if_pos h, if_pos zero]

theorem fpDiv_infinity_left (ha : fpClass f a = .infinity) (hb : Ordinary f b) :
    fpDiv f env a b = .value (fpInfinity f (fpSign f a ^^ fpSign f b)) 0 := by
  rw [fpDiv, fpCheck2_valued (fpValued_of_infinity ha) (fpValued_of_ordinary hb), if_pos ha,
    if_neg (fpClass_ne_infinity hb)]

theorem fpDiv_infinities (ha : fpClass f a = .infinity) (hb : fpClass f b = .infinity) :
    fpDiv f env a b = fpInvalid f := by
  rw [fpDiv, fpCheck2_valued (fpValued_of_infinity ha) (fpValued_of_infinity hb), if_pos ha, if_pos hb]

theorem fpDiv_infinity_right (ha : Ordinary f a) (hb : fpClass f b = .infinity) :
    fpDiv f env a b = .value (fpZeroOf f (fpSign f a ^^ fpSign f b)) 0 := by
  rw [fpDiv, fpCheck2_valued (fpValued_of_ordinary ha) (fpValued_of_infinity hb),
    if_neg (fpClass_ne_infinity ha), if_pos hb]

/-- A zero divisor: of a zero the quotient is invalid, of another number it raises Z. -/
theorem fpDiv_by_zero (ha : Ordinary f a) (hb : fpClass f b = .zero) :
    fpDiv f env a b = if fpClass f a = .zero then fpInvalid f
      else .value (fpInfinity f (fpSign f a ^^ fpSign f b)) fpZ := by
  rw [fpDiv, fpCheck2_valued (fpValued_of_ordinary ha) (fpValued_of_ordinary (.inl hb)),
    if_neg (fpClass_ne_infinity ha), if_neg (fpClass_ne_infinity (.inl hb)), if_pos hb]

theorem fpSqrt_infinity (ha : fpClass f a = .infinity) :
    fpSqrt f env a = if fpSign f a then fpInvalid f else .value (fpInfinity f false) 0 := by
  rw [fpSqrt, fpCheck1_valued (fpValued_of_infinity ha), if_neg (by simp [ha]), if_pos ha]

theorem fpSqrt_negative (ha : fpClass f a = .normal) (h : fpSign f a = true) :
    fpSqrt f env a = fpInvalid f := by
  rw [fpSqrt, fpCheck1_valued (fpValued_of_ordinary (.inr ha)), if_neg (by simp [ha]), if_pos h]

theorem fpConvert_infinity (ha : fpClass g a = .infinity) :
    fpConvert g f env a = .value (fpInfinity f (fpSign g a)) 0 := by
  rw [fpConvert, fpCheck1_valued (fpValued_of_infinity ha), if_neg (by simp [ha]), if_pos ha]

end

/-- The default quiet NaN by its pattern (R431). -/
theorem fpInvalid_eq (f : FpFormat) : fpInvalid f = .value (match f with
    | .single => 0x7FBFFFFF
    | .double => 0x7FF7FFFFFFFFFFFF) 0x10 := by cases f <;> rfl

/-- Settles O60: the checks of the operands answer denormals and NaNs, and each operation answers
infinities and zero divisors by class. -/
theorem fpSpecial : Obligations.FpSpecial := by
  intro f g env rm a b c finite anyNan zero inf invalid quiet sign two own fixed
  have invalid_eq : fpInvalid f = invalid := fpInvalid_eq f
  rw [← invalid_eq]
  refine ⟨?denormal2, ?denormalOwn, ?denormalConvert, fun ha hb => ⟨?signalling2, ?quiet2⟩,
    ?signallingOwn, fun ha => ⟨?quietOwn, fun _ _ => fpSign_fpSetSign_quiet ha,
      fun _ _ => fpSign_fpSetSign_quiet ha⟩, fpCheck1_signalling, fpCheck1_quiet, fun ha => ?infinityLeft,
    fun ha hb => ?infinityRight, fun hb => ⟨fun ha => ?byZero, fun ha => ?zeros⟩, fpSqrt_negative,
    fpConvert_infinity, ?fixedSpecial, fpOfLong_outOfRange⟩
  case infinityLeft =>
    exact ⟨fpAdd_infinity_left ha, fpSub_infinity_left ha, fpAdd_opposite_infinities ha,
      fpSub_alike_infinities ha, fun hb => fpMul_infinity (.inr ha) hb (.inl ha),
      fun hb => fpMul_infinity_zero (fpValued_of_infinity ha) (.inl hb) (.inl ha) (.inr hb),
      fpDiv_infinity_left ha, fpDiv_infinities ha, fpSqrt_infinity ha, fpSetSign_infinity ha,
      fpSetSign_infinity ha⟩
  case infinityRight =>
    exact ⟨fpAdd_infinity_right ha hb, fpSub_infinity_right ha hb,
      fun ha => fpMul_infinity (.inl ha) (.inr hb) (.inr hb),
      fun ha => fpMul_infinity_zero (.inl ha) (fpValued_of_infinity hb) (.inr hb) (.inl ha),
      fpDiv_infinity_right ha hb⟩
  case byZero => exact (fpDiv_by_zero (.inr ha) hb).trans (if_neg (fpClass_ne_zero (.inl ha)))
  case zeros => exact (fpDiv_by_zero (.inl ha) hb).trans (if_pos ha)
  case denormal2 =>
    intro h r hr
    obtain ⟨e, k, he, rfl⟩ := twoOperands_checked hr
    exact fpCheck2_denormal (by rwa [he])
  case signalling2 =>
    intro h r hr
    obtain ⟨e, k, he, rfl⟩ := twoOperands_checked hr
    exact fpCheck2_signalling ha (by rwa [he]) (by rwa [he])
  case quiet2 =>
    intro sa sb h r hr
    obtain ⟨e, k, he, rfl⟩ := twoOperands_checked hr
    exact fpCheck2_quiet ha (by rwa [he]) sa (by rwa [he]) (by rwa [he])
  case denormalOwn =>
    intro h r hr
    obtain ⟨k, rfl⟩ | ⟨neg, rfl⟩ := oneOperand_cases hr
    · exact fpCheck1_denormal h
    · exact fpSetSign_denormal h
  case signallingOwn =>
    intro h r hr
    obtain ⟨k, rfl⟩ | ⟨neg, rfl⟩ := oneOperand_cases hr
    · exact fpCheck1_signalling h
    · exact fpSetSign_signalling h
  case quietOwn =>
    intro r hr
    obtain ⟨k, rfl⟩ | ⟨neg, rfl⟩ := oneOperand_cases hr
    · exact fpCheck1_quiet ha
    · exact ⟨_, fpSetSign_quiet ha, (fpQuietNan_spec f _ _).1⟩
  case denormalConvert =>
    intro h r hr
    obtain rfl | hr := List.mem_cons.1 hr
    · exact fpCheck1_denormal h
    · exact fixed_unimplemented (by simp [h]) (by simp [h]) hr
  case fixedSpecial =>
    intro h r hr
    exact fixed_unimplemented (by rcases h with h | h | h <;> simp [h])
      (by rcases h with h | h | h <;> simp [h]) hr

end Sys2Proof.Machine
end

section
/-! PROOFS. The floating-point wrapper: FCR31 field by field, the answer of either unit, and how an
instruction acts by it. -/

namespace Sys2Proof.Machine

/-! ### FCR31 after the wrapper (R45, R432) -/

/-- The fields of FCR31 after the wrapper, bit by bit. -/
theorem getLsbD_fcr31With (f : BitVec 32) (e : Bool) (x y : FpExceptions) {k : Nat} (hk : k < 32) :
    (fcr31With f e x y).getLsbD k =
      if 2 ≤ k ∧ k < 7 then f.getLsbD k || y.getLsbD (k - 2)
      else if 12 ≤ k ∧ k < 17 then x.getLsbD (k - 12)
      else if k = 17 then e else f.getLsbD k := by
  refine (BitVec.getLsbD_append ..).trans ?_
  simp only [BitVec.getLsbD_append, BitVec.getLsbD_extractLsb', BitVec.getLsbD_or, BitVec.getLsbD_ofBool]
  interval_cases k <;> simp

theorem fcr31ClearCause_eq (f : BitVec 32) : fcr31ClearCause f = fcr31With f false 0 0 := by
  refine BitVec.eq_of_getLsbD_eq fun k hk => ?_
  rw [getLsbD_fcr31With _ _ _ _ hk]
  interval_cases k <;> simp [fcr31ClearCause]

theorem fcr31SetCauseE_with (f : BitVec 32) (x y : FpExceptions) :
    fcr31SetCauseE (fcr31With f false x y) = fcr31With f true x y := by
  refine BitVec.eq_of_getLsbD_eq fun k hk => ?_
  rw [fcr31SetCauseE, BitVec.getLsbD_or, getLsbD_fcr31With _ _ _ _ hk, getLsbD_fcr31With _ _ _ _ hk]
  interval_cases k <;> simp

theorem fcr31SetCause_with (f : BitVec 32) (e : Bool) (x y : FpExceptions) :
    fcr31SetCause (fcr31With f e 0 y) x = fcr31With f e x y := by
  refine BitVec.eq_of_getLsbD_eq fun k hk => ?_
  rw [fcr31SetCause, BitVec.getLsbD_or, getLsbD_fcr31With _ _ _ _ hk, getLsbD_fcr31With _ _ _ _ hk]
  interval_cases k <;> simp

theorem fcr31SetFlags_with (f : BitVec 32) (e : Bool) (x y : FpExceptions) :
    fcr31SetFlags (fcr31With f e x 0) y = fcr31With f e x y := by
  refine BitVec.eq_of_getLsbD_eq fun k hk => ?_
  rw [fcr31SetFlags, BitVec.getLsbD_or, getLsbD_fcr31With _ _ _ _ hk, getLsbD_fcr31With _ _ _ _ hk]
  interval_cases k <;> simp

theorem getLsbD_fcr31SetCond (f : BitVec 32) (c : Bool) {k : Nat} (hk : k < 32) :
    (fcr31SetCond f c).getLsbD k = if k = 23 then c else f.getLsbD k := by
  interval_cases k <;> cases c <;> simp [fcr31SetCond]

/-- FloatingPoint raised with Cause E and the causes `x` set, FCR31 else as it was (R432, steps 3 and 6). -/
theorem raiseFp_spec {s : State} {v : BitVec 32} {e : Bool} {x : FpExceptions}
    (value : v = fcr31With s.fcr31 e x 0) :
    ∃ t, raise .floatingPoint (s.setFcr31 v) = .next t ∧ FpRaised s t e x := by
  obtain ⟨t, run, raised⟩ := raise_spec .floatingPoint (s.setFcr31 v)
  have fcr31 : t.fcr31 = v := (congrArg State.fcr31 raised.same :)
  exact ⟨t, run, by rw [fcr31]; exact raised, fcr31.trans value⟩

/-! ### The unit's answer (R432, steps 3 and 4, R436) -/

theorem isExact_iff {r : FpResult} : r.isExact = true ↔ ∃ v, r = .value v 0 := by
  cases r <;> simp [FpResult.isExact]

section
variable {s : State} {fmt : BitVec 5} {funct : BitVec 6} {ordinary : Bool} {a b : Word} {r : FpResult}

theorem fpAnswer_default (h : s.fpu = .standard ∨ ordinary = true ∧ ∃ v, r = .value v 0) :
    s.fpAnswer fmt funct ordinary a b r = r := by
  unfold State.fpAnswer
  cases unit : s.fpu with
  | standard => rfl
  | free =>
    obtain ⟨isOrdinary, isValue⟩ := h.resolve_left (by simp [unit])
    exact if_pos (by rw [isOrdinary, isExact_iff.2 isValue]; rfl)

/-- The rounding mode and FS do not lie in the Cause field. -/
theorem fcr31With_rm (f : BitVec 32) (e : Bool) (x y : FpExceptions) :
    fcr31Rm (fcr31With f e x y) = f.extractLsb' 0 2 := by
  refine BitVec.eq_of_getLsbD_eq fun k hk => ?_
  rw [fcr31Rm, BitVec.getLsbD_extractLsb', BitVec.getLsbD_extractLsb', Nat.zero_add,
    getLsbD_fcr31With _ _ _ _ (by omega), if_neg (by omega), if_neg (by omega), if_neg (by omega)]

theorem fcr31With_flush (f : BitVec 32) (e : Bool) (x y : FpExceptions) :
    fcr31Flush (fcr31With f e x y) = f.getLsbD 24 := getLsbD_fcr31With f e x y (by decide)

/-- What a free unit answers, by its two open parameters. -/
def FreeAnswer (s : State) (fmt : BitVec 5) (funct : BitVec 6) (a b : Word) : FpResult :=
  if Config.fpUnimplemented fmt funct a b (fcr31With s.fcr31 false 0 0) then .unimplemented
  else .value (Config.fpResult fmt funct a b (s.fcr31.extractLsb' 0 2) (s.fcr31.getLsbD 24)).1
    (Config.fpResult fmt funct a b (s.fcr31.extractLsb' 0 2) (s.fcr31.getLsbD 24)).2

theorem fpAnswer_free (unit : s.fpu = .free) (h : ¬ (ordinary = true ∧ ∃ v, r = .value v 0)) :
    s.fpAnswer fmt funct ordinary a b r = FreeAnswer s fmt funct a b := by
  have inexact : ¬ (ordinary && r.isExact) = true := by rwa [Bool.and_eq_true, isExact_iff]
  rw [State.fpAnswer, unit]
  refine (if_neg inexact).trans ?_
  rw [fpFree, FreeAnswer, fcr31ClearCause_eq, fcr31With_rm, fcr31With_flush]

end

/-! ### Operands and results (R41, R430, R432) -/

theorem readFp_single (s : State) (i : Reg) : s.readFp .single i =
    ((s.readFpr (s.fprSlot i).1).extractLsb' (s.fprSlot i).2 32).setWidth 64 :=
  congrArg (BitVec.setWidth 64) (readF32_eq s i)

section
variable {s : State} {o : Out} {wide : Bool} {fd : Reg} {r : FpResult}

/-- A result is one write of a whole register; the upper half of an S or W result is a free value. -/
theorem writeFp_as_writeF64 (s : State) (wide : Bool) (i : Reg) (v : Word) : s.writeFp wide i v =
    s.writeF64 i (if wide then v else Config.fprUpper s.draws ++ lowWord v) := by
  cases wide <;> rfl

theorem completeResult_spec {f : BitVec 32} {x : FpExceptions} (v : Word)
    (value : f = fcr31With s.fcr31 false x x) :
    ∃ t, complete (fun c => (c.setFcr31 f).writeFp wide fd v) s = .next t ∧ FpWrote s t wide fd v x := by
  obtain ⟨w, hw⟩ : ∃ w, w = if wide then v else Config.fprUpper s.draws ++ lowWord v := ⟨_, rfl⟩
  obtain ⟨t, run, advanced, same⟩ := completeFp_spec (s := s)
    (f := fun c => (c.setFcr31 f).writeFp wide fd v) (fpr := (s.writeF64 fd w).fpr) (fcr31 := f)
    (by rw [writeFp_as_writeF64, hw, commitLoad_eq]; rfl)
  have fpr : t.fpr = (s.writeF64 fd w).fpr := (congrArg State.fpr same :)
  have fcr31 : t.fcr31 = f := (congrArg State.fcr31 same :)
  have written (k : Reg) : t.readFpr k = if k = s.fprIndex fd then w else s.readFpr k :=
    (readFpr_congr fpr k).trans (readFpr_setFpr ..)
  refine ⟨t, run, advanced, ?low, ?whole, fun k hk => (written k).trans (if_neg hk),
    fcr31.trans value, by rw [fpr, fcr31]; exact same⟩
  case low =>
    rw [written, if_pos rfl, hw]
    cases wide
    · exact BitVec.extractLsb'_append_eq_right
    · rfl
  case whole =>
    rintro rfl
    rw [written, if_pos rfl, hw, if_pos rfl]

/-- The outcome `o` acts by the result `r`: written, or FloatingPoint raised. -/
def FpActs (s : State) (o : Out) (wide : Bool) (fd : Reg) (r : FpResult) : Prop :=
  (∀ v x, r = .value v x → x &&& fcr31Enable s.fcr31 = 0 →
    ∃ t, o = .next t ∧ FpWrote s t wide fd v x) ∧
  (∀ v x, r = .value v x → x &&& fcr31Enable s.fcr31 ≠ 0 →
    ∃ t, o = .next t ∧ FpRaised s t false x) ∧
  (r = .unimplemented → ∃ t, o = .next t ∧ FpRaised s t true 0)

theorem fpFinish_acts (s : State) (wide : Bool) (fd : Reg) (r : FpResult) :
    FpActs s (fpFinish wide fd r s) wide fd r := by
  refine ⟨fun v x value disabled => ?_, fun v x value enabled => ?_, fun unimplemented => ?_⟩
  · subst value
    rw [fpFinish, if_neg (not_not.2 disabled)]
    exact completeResult_spec v (by rw [fcr31ClearCause_eq, fcr31SetCause_with, fcr31SetFlags_with])
  · subst value
    rw [fpFinish, if_pos enabled]
    exact raiseFp_spec (by rw [fcr31ClearCause_eq, fcr31SetCause_with])
  · subst unimplemented
    exact raiseFp_spec (by rw [fcr31ClearCause_eq, fcr31SetCauseE_with])

/-! ### Every shape of instruction (R432, R440 to R459) -/

/-- The outcome `o` acts by the default answer `r`, or by the answer of a free unit outside the exact
subset. -/
def FpRuns (s : State) (fd : Reg) (o : Out) (wide : Bool) (fmt : BitVec 5) (funct : BitVec 6)
    (ordinary : Prop) (a b : Word) (r : FpResult) : Prop :=
  (s.fpu = .standard ∨ ordinary ∧ (∃ v, r = .value v 0) → FpActs s o wide fd r) ∧
  (s.fpu = .free → ¬ (ordinary ∧ ∃ v, r = .value v 0) →
    FpActs s o wide fd (FreeAnswer s fmt funct a b))

variable {fmt : BitVec 5} {funct : BitVec 6} {ordinary : Prop} {a b : Word} {f g : FpFormat}
  {rm : RoundMode} {env : FpEnv} {fs ft : Reg}

variable (usable : s.copUsable1 = true)
include usable

theorem fpRuns_of {ord : Bool} (h : ord = true ↔ ordinary)
    (run : o = withCop1 s (fpFinish wide fd (s.fpAnswer fmt funct ord a b r) s)) :
    FpRuns s fd o wide fmt funct ordinary a b r := by
  subst run
  rw [withCop1_of usable, FpRuns, ← h]
  refine ⟨fun default => ?_, fun unit outside => ?_⟩
  · rw [fpAnswer_default default]
    exact fpFinish_acts s wide fd r
  · rw [fpAnswer_free unit outside]
    exact fpFinish_acts s wide fd _

/-- The operations on two operands. -/
theorem fpBinary_runs {op : FpFormat → FpEnv → Word → Word → FpResult} (env_eq : s.fpEnv = env)
    (ha : s.readFp f fs = a) (hb : s.readFp f ft = b) (run : o = fpBinary f funct op fd fs ft s) :
    FpRuns s fd o f.wide f.code funct (Ordinary f a ∧ Ordinary f b) a b (op f env a b) := by
  subst env_eq ha hb
  exact fpRuns_of usable (by rw [Bool.and_eq_true, fpOrdinary_iff, fpOrdinary_iff]) run

/-- The operations on one operand with a result of its format. -/
theorem fpUnary_runs {op : FpFormat → FpEnv → Word → FpResult} (env_eq : s.fpEnv = env)
    (ha : s.readFp f fs = a) (run : o = fpUnary f funct op fd fs s) :
    FpRuns s fd o f.wide f.code funct (Ordinary f a) a 0 (op f env a) := by
  subst env_eq ha
  exact fpRuns_of usable fpOrdinary_iff run

/-- The conversions to W. -/
theorem fpToW_runs (ha : s.readFp f fs = a) (run : o = fpToW f funct rm fd fs s) :
    FpRuns s fd o false f.code funct (Ordinary f a) a 0 (fpToWord f rm a) := by
  subst ha
  exact fpRuns_of usable fpOrdinary_iff run

/-- The conversions to L. -/
theorem fpToL_runs (ha : s.readFp f fs = a) (run : o = fpToL f funct rm fd fs s) :
    FpRuns s fd o true f.code funct (Ordinary f a) a 0 (fpToLong f rm a) := by
  subst ha
  exact fpRuns_of usable fpOrdinary_iff run

/-- The conversions between S and D. -/
theorem fpCvt_runs (env_eq : s.fpEnv = env) (ha : s.readFp g fs = a)
    (run : o = fpCvt g f funct fd fs s) :
    FpRuns s fd o f.wide g.code funct (Ordinary g a) a 0 (fpConvert g f env a) := by
  subst env_eq ha
  exact fpRuns_of usable fpOrdinary_iff run

/-- The conversions from W, whose operand is read as one of S. -/
theorem fpFromW_runs (env_eq : s.fpEnv = env)
    (ha : s.readFp .single fs = a) (run : o = fpFromW f funct fd fs s) :
    FpRuns s fd o f.wide 0x14 funct True a 0 (fpOfWord f env a) := by
  subst env_eq ha
  exact fpRuns_of usable (iff_of_true rfl trivial) run

/-- The conversions from L, whose operand is read as one of D. -/
theorem fpFromL_runs (env_eq : s.fpEnv = env)
    (ha : s.readFp .double fs = a) (run : o = fpFromL f funct fd fs s) :
    FpRuns s fd o f.wide 0x15 funct True a 0 (fpOfLong f env a) := by
  subst env_eq ha
  exact fpRuns_of usable (iff_of_true rfl trivial) run

/-- MOV takes no unit's answer (R446). -/
theorem fpMove_spec (ha : s.readFp f fs = a)
    (run : o = fpMove f fd fs s) : ∃ t, o = .next t ∧ FpWrote s t f.wide fd a 0 := by
  subst ha run
  rw [fpMove, withCop1_of usable]
  exact completeResult_spec _ (fcr31ClearCause_eq s.fcr31)

end

/-- Settles O56: each instruction is of one of eight shapes, with its operands and environment read off the
state. -/
theorem fpWrapper : Obligations.FpWrapper := by
  intro st fd fs ft usable enable flush mode env cleared w d free num acts runs
  have env_eq : st.fpEnv = env := by rw [fpEnv_eq, roundModeOf_eq]
  have rm_eq : st.fpEnv.rm = env.rm := congrArg FpEnv.rm env_eq
  have hw (i : Reg) : st.readFp .single i = w i := readFp_single st i
  have hd (i : Reg) : st.readFp .double i = d i := rfl
  refine ⟨rfl,
    fpBinary_runs usable env_eq (hw fs) (hw ft) rfl, fpBinary_runs usable env_eq (hd fs) (hd ft) rfl,
    fpBinary_runs usable env_eq (hw fs) (hw ft) rfl, fpBinary_runs usable env_eq (hd fs) (hd ft) rfl,
    fpBinary_runs usable env_eq (hw fs) (hw ft) rfl, fpBinary_runs usable env_eq (hd fs) (hd ft) rfl,
    fpBinary_runs usable env_eq (hw fs) (hw ft) rfl, fpBinary_runs usable env_eq (hd fs) (hd ft) rfl,
    fpUnary_runs usable env_eq (hw fs) rfl, fpUnary_runs usable env_eq (hd fs) rfl,
    fpUnary_runs usable env_eq (hw fs) rfl, fpUnary_runs usable env_eq (hd fs) rfl,
    fpUnary_runs usable env_eq (hw fs) rfl, fpUnary_runs usable env_eq (hd fs) rfl,
    fpToL_runs usable (hw fs) rfl, fpToL_runs usable (hd fs) rfl,
    fpToW_runs usable (hw fs) rfl, fpToW_runs usable (hd fs) rfl,
    fpToL_runs usable (hw fs) rfl, fpToL_runs usable (hd fs) rfl,
    fpToW_runs usable (hw fs) rfl, fpToW_runs usable (hd fs) rfl,
    fpToL_runs usable (hw fs) rfl, fpToL_runs usable (hd fs) rfl,
    fpToW_runs usable (hw fs) rfl, fpToW_runs usable (hd fs) rfl,
    fpToL_runs usable (hw fs) rfl, fpToL_runs usable (hd fs) rfl,
    fpToW_runs usable (hw fs) rfl, fpToW_runs usable (hd fs) rfl,
    fpToL_runs usable (hw fs) (rm_eq ▸ rfl), fpToL_runs usable (hd fs) (rm_eq ▸ rfl),
    fpToW_runs usable (hw fs) (rm_eq ▸ rfl), fpToW_runs usable (hd fs) (rm_eq ▸ rfl),
    fpCvt_runs usable env_eq (hd fs) rfl, fpCvt_runs usable env_eq (hw fs) rfl,
    fpFromW_runs usable env_eq (hw fs) rfl, fpFromW_runs usable env_eq (hw fs) rfl,
    fpFromL_runs usable env_eq (hd fs) rfl, fpFromL_runs usable env_eq (hd fs) rfl,
    fpMove_spec usable (hw fs) rfl, fpMove_spec usable (hd fs) rfl⟩

end Sys2Proof.Machine
end

section
/-! PROOFS. The floating-point compares: an integer key orders the patterns as their values, and the three
ways a compare ends. -/

namespace Sys2Proof.Machine

/-! ### The order of patterns and of their values (R431, R460) -/

/-- A pattern without its sign: exponent and fraction. -/
def fpField (f : FpFormat) (v : Word) : ℕ := fpExp f v * 2 ^ f.fracBits + fpFrac f v

section
variable {f : FpFormat} {a b : Word}

theorem fpOrderKey_eq (f : FpFormat) (v : Word) :
    fpOrderKey f v = if fpSign f v then -(fpField f v : ℤ) else fpField f v := rfl

theorem fpField_inj (h : fpField f a = fpField f b) : fpExp f a = fpExp f b ∧ fpFrac f a = fpFrac f b := by
  have exponent (v : Word) : fpField f v / 2 ^ f.fracBits = fpExp f v := by
    rw [fpField, Nat.add_comm, Nat.add_mul_div_right _ _ (by positivity), Nat.div_eq_of_lt (fpFrac_lt f v),
      Nat.zero_add]
  have exp : fpExp f a = fpExp f b := by rw [← exponent a, h, exponent b]
  rw [fpField, fpField, exp] at h
  exact ⟨exp, by omega⟩

theorem fpMagnitude_congr (h : fpField f a = fpField f b) : fpMagnitude f a = fpMagnitude f b := by
  obtain ⟨exp, frac⟩ := fpField_inj h
  simp only [fpMagnitude, fpMant, fpScale, exp, frac]

/-- Of two exponents the larger one wins: the significands differ by less than a factor of two. -/
theorem fpMagnitude_lt_of_exp (h : fpExp f a < fpExp f b) : fpMagnitude f a < fpMagnitude f b := by
  have two : (1 : ℝ) ≤ 2 := one_le_two
  have fa := fpFrac_lt f a
  have low : (2 : ℝ) ^ f.fracBits * 2 ^ fpScale f b ≤ fpMagnitude f b := by
    have mant : 2 ^ f.fracBits ≤ fpMant f b := by rw [fpMant, if_neg (by omega)]; omega
    have mantR : (2 : ℝ) ^ f.fracBits ≤ fpMant f b := by exact_mod_cast mant
    exact mul_le_mul_of_nonneg_right mantR (by positivity)
  refine lt_of_lt_of_le ?_ low
  by_cases zero : fpExp f a = 0
  · have mant : (fpMant f a : ℝ) < 2 ^ f.fracBits := by rw [fpMant, if_pos zero]; exact_mod_cast fa
    have scale : fpScale f a ≤ fpScale f b := by
      rw [fpScale, fpScale, if_pos zero, if_neg (by omega)]; omega
    calc fpMagnitude f a < 2 ^ f.fracBits * 2 ^ fpScale f a := mul_lt_mul_of_pos_right mant (by positivity)
      _ ≤ _ := mul_le_mul_of_nonneg_left (zpow_le_zpow_right₀ two scale) (by positivity)
  · have mant : (fpMant f a : ℝ) < 2 ^ f.fracBits * 2 := by
      rw [fpMant, if_neg zero]
      have : ((2 ^ f.fracBits + fpFrac f a : ℕ) : ℝ) < ((2 ^ f.fracBits * 2 : ℕ) : ℝ) :=
        Nat.cast_lt.2 (by omega)
      exact_mod_cast this
    have scale : 1 + fpScale f a ≤ fpScale f b := by
      rw [fpScale, fpScale, if_neg zero, if_neg (by omega)]; omega
    calc fpMagnitude f a < 2 ^ f.fracBits * 2 * 2 ^ fpScale f a :=
          mul_lt_mul_of_pos_right mant (by positivity)
      _ = 2 ^ f.fracBits * 2 ^ (1 + fpScale f a) := by rw [zpow_one_add₀ two_ne_zero, mul_assoc]
      _ ≤ _ := mul_le_mul_of_nonneg_left (zpow_le_zpow_right₀ two scale) (by positivity)

theorem fpMagnitude_lt (h : fpField f a < fpField f b) : fpMagnitude f a < fpMagnitude f b := by
  have fa := fpFrac_lt f a
  have fb := fpFrac_lt f b
  rcases lt_trichotomy (fpExp f a) (fpExp f b) with lt | eq | gt
  · exact fpMagnitude_lt_of_exp lt
  · have frac : fpFrac f a < fpFrac f b := by rw [fpField, fpField, eq] at h; omega
    have mant : fpMant f a < fpMant f b := by rw [fpMant, fpMant, eq]; split_ifs <;> omega
    have scale : fpScale f a = fpScale f b := by rw [fpScale, fpScale, eq]
    rw [fpMagnitude, fpMagnitude, scale]
    exact mul_lt_mul_of_pos_right (Nat.cast_lt.2 mant) (by positivity)
  · have := Nat.mul_le_mul_right (2 ^ f.fracBits) (show fpExp f b + 1 ≤ fpExp f a from gt)
    rw [fpField, fpField] at h
    rw [Nat.add_mul] at this
    omega

theorem fpMagnitude_lt_iff : fpMagnitude f a < fpMagnitude f b ↔ fpField f a < fpField f b := by
  refine ⟨fun h => ?_, fpMagnitude_lt⟩
  rcases lt_trichotomy (fpField f a) (fpField f b) with lt | eq | gt
  · exact lt
  · exact absurd (fpMagnitude_congr eq) h.ne
  · exact absurd (fpMagnitude_lt gt) h.not_gt

/-- A magnitude is positive where a field is set. -/
theorem fpMagnitude_pos_iff : 0 < fpMagnitude f a ↔ 0 < fpField f a := by
  have zero : fpMagnitude f 0 = 0 := by simp [fpMagnitude, fpMant, fpExp, fpFrac]
  have field : fpField f 0 = 0 := by simp [fpField, fpExp, fpFrac]
  rw [← zero, fpMagnitude_lt_iff, field]

/-- Keys order the numbers as their values. -/
theorem fpNumber_lt_iff : fpNumber f a < fpNumber f b ↔ fpOrderKey f a < fpOrderKey f b := by
  have na := fpMagnitude_nonneg f a
  have nb := fpMagnitude_nonneg f b
  rw [fpNumber_signed, fpNumber_signed, fpOrderKey_eq, fpOrderKey_eq]
  cases fpSign f a <;> cases fpSign f b <;> simp only [if_true, Bool.false_eq_true, if_false]
  case false.false => rw [fpMagnitude_lt_iff, Nat.cast_lt]
  case false.true => exact iff_of_false (by linarith) (by omega)
  case true.true => rw [neg_lt_neg_iff, neg_lt_neg_iff, fpMagnitude_lt_iff, Nat.cast_lt]
  case true.false =>
    have magnitudes : -fpMagnitude f a < fpMagnitude f b ↔ 0 < fpMagnitude f a ∨ 0 < fpMagnitude f b :=
      ⟨fun h => by by_contra! c; linarith, fun h => by rcases h with h | h <;> linarith⟩
    rw [magnitudes, fpMagnitude_pos_iff, fpMagnitude_pos_iff]
    omega

theorem fpNumber_eq_iff : fpNumber f a = fpNumber f b ↔ fpOrderKey f a = fpOrderKey f b := by
  rw [le_antisymm_iff, le_antisymm_iff, ← not_lt, ← not_lt, ← not_lt, ← not_lt, fpNumber_lt_iff,
    fpNumber_lt_iff]

/-! ### Infinities are the extreme keys (R460) -/

/-- The key of `+inf`. -/
def fpExtremeKey (f : FpFormat) : ℤ := (f.emax * 2 ^ f.fracBits : ℕ)

theorem fpExtremeKey_pos (f : FpFormat) : 0 < fpExtremeKey f := by cases f <;> decide

theorem emax_ne_zero (f : FpFormat) : f.emax ≠ 0 := by cases f <;> decide

theorem fpClass_infinity : fpClass f a = .infinity ↔ fpExp f a = f.emax ∧ fpFrac f a = 0 := by
  have := emax_ne_zero f
  unfold fpClass
  split_ifs <;> simp_all [eq_comm]

/-- The exponent field of infinities is theirs and of NaNs only (R431). -/
theorem fpExp_ne_emax (nan : fpIsNan f a = false) (h : fpClass f a ≠ .infinity) : fpExp f a ≠ f.emax := by
  intro exp
  have frac : fpFrac f a ≠ 0 := fun frac => h (fpClass_infinity.2 ⟨exp, frac⟩)
  simp only [fpIsNan, fpClass, exp, emax_ne_zero, frac, if_true, if_false] at nan
  split_ifs at nan <;> simp at nan

theorem fpOrderKey_infinity (h : fpClass f a = .infinity) :
    fpOrderKey f a = if fpSign f a then -fpExtremeKey f else fpExtremeKey f := by
  obtain ⟨exp, frac⟩ := fpClass_infinity.1 h
  rw [fpOrderKey_eq, fpField, exp, frac]
  rfl

theorem fpOrderKey_finite (nan : fpIsNan f a = false) (h : fpClass f a ≠ .infinity) :
    -fpExtremeKey f < fpOrderKey f a ∧ fpOrderKey f a < fpExtremeKey f := by
  have exponent := fpExp_ne_emax nan h
  have bound : fpField f a < f.emax * 2 ^ f.fracBits := by
    have lt : fpExp f a < f.emax := by have := fpExp_lt f a; have := emax_eq f; omega
    have := Nat.mul_le_mul_right (2 ^ f.fracBits) (Nat.succ_le_of_lt lt)
    rw [Nat.succ_mul] at this
    have := fpFrac_lt f a
    rw [fpField]
    omega
  rw [fpOrderKey_eq, fpExtremeKey]
  split <;> omega

/-- Keys order all patterns but NaNs. -/
theorem fpBefore_iff (na : fpIsNan f a = false) (nb : fpIsNan f b = false) :
    fpBefore f a b ↔ fpOrderKey f a < fpOrderKey f b := by
  have pos := fpExtremeKey_pos f
  unfold fpBefore
  by_cases ia : fpClass f a = .infinity <;> by_cases ib : fpClass f b = .infinity
  · simp only [ia, ib, if_true, true_and, fpOrderKey_infinity]
    cases fpSign f a <;> cases fpSign f b <;> simp <;> omega
  · have := fpOrderKey_finite nb ib
    simp only [ia, ib, if_true, false_and, not_false_iff, and_true, fpOrderKey_infinity]
    cases fpSign f a <;> simp <;> omega
  · have := fpOrderKey_finite na ia
    simp only [ia, ib, if_true, if_false, fpOrderKey_infinity]
    cases fpSign f b <;> simp <;> omega
  · rw [if_neg ia, if_neg ib, fpNumber_lt_iff]

theorem fpSame_iff (na : fpIsNan f a = false) (nb : fpIsNan f b = false) :
    fpSame f a b ↔ fpOrderKey f a = fpOrderKey f b := by
  have pos := fpExtremeKey_pos f
  unfold fpSame
  by_cases ia : fpClass f a = .infinity <;> by_cases ib : fpClass f b = .infinity
  · simp only [ia, ib, true_or, if_true, true_and, fpOrderKey_infinity]
    cases fpSign f a <;> cases fpSign f b <;> simp <;> omega
  · have := fpOrderKey_finite nb ib
    simp only [ia, true_or, if_true, fpOrderKey_infinity, Ne.symm ib, false_and, false_iff]
    split <;> omega
  · have := fpOrderKey_finite na ia
    simp only [ib, or_true, if_true, fpOrderKey_infinity, ia, false_and, false_iff]
    split <;> omega
  · rw [if_neg (not_or.2 ⟨ia, ib⟩), fpNumber_eq_iff]

end

/-! ### The conditions of a compare (R460) -/

section
variable {f : FpFormat} {cond : BitVec 4} {a b : Word}

/-- One of the operands is a NaN. -/
def FpUnordered (f : FpFormat) (a b : Word) : Prop :=
  fpClass f a = .quietNan ∨ fpClass f b = .quietNan ∨
    fpClass f a = .signallingNan ∨ fpClass f b = .signallingNan

theorem fpUnordered_iff : fpUnordered f a b = true ↔ FpUnordered f a b := by
  simp only [fpUnordered, fpIsNan, Bool.or_eq_true, decide_eq_true_eq, FpUnordered]
  tauto

theorem not_fpUnordered (h : ¬ FpUnordered f a b) : fpIsNan f a = false ∧ fpIsNan f b = false := by
  rwa [← fpUnordered_iff, fpUnordered, Bool.or_eq_true, not_or, Bool.not_eq_true, Bool.not_eq_true] at h

/-- The compare is invalid: unordered, and either asked to signal or with a signalling operand. -/
def FpInvalidCompare (f : FpFormat) (cond : BitVec 4) (a b : Word) : Prop :=
  FpUnordered f a b ∧
    (cond.getLsbD 3 = true ∨ fpClass f a = .signallingNan ∨ fpClass f b = .signallingNan)

/-- The condition by the numeric values. -/
def FpCondition (f : FpFormat) (cond : BitVec 4) (a b : Word) : Prop :=
  (cond.getLsbD 2 = true ∧ ¬ FpUnordered f a b ∧ fpBefore f a b) ∨
    (cond.getLsbD 1 = true ∧ ¬ FpUnordered f a b ∧ fpSame f a b) ∨
    (cond.getLsbD 0 = true ∧ FpUnordered f a b)

theorem fpCompareInvalid_iff : fpCompareInvalid f cond a b = true ↔ FpInvalidCompare f cond a b := by
  simp [fpCompareInvalid, FpInvalidCompare, fpUnordered_iff, or_assoc]

theorem fpCompare_iff : fpCompare f cond a b = true ↔ FpCondition f cond a b := by
  rw [fpCompare, fpLess, fpEqual, FpCondition]
  by_cases unordered : FpUnordered f a b
  · simp [unordered, fpUnordered_iff.2 unordered]
  · obtain ⟨na, nb⟩ := not_fpUnordered unordered
    simp [unordered, fpUnordered, na, nb, fpBefore_iff na nb, fpSame_iff na nb]

end

/-! ### How a compare ends (R432, R460) -/

section
variable {s : State} {f : FpFormat} {cond : BitVec 4} {fs ft : Reg} {o : Out}

/-- A compare completed in an outcome `o`: C by the condition, the exceptions `x` in Cause and Flags. -/
def CompareCompletes (s : State) (o : Out) (f : FpFormat) (cond : BitVec 4) (a b : Word)
    (x : FpExceptions) : Prop :=
  ∃ t, o = .next t ∧ Advanced s t none ∧ SameButGpr { s with fcr31 := t.fcr31 } t ∧
    (t.fcr31.getLsbD 23 = true ↔ FpCondition f cond a b) ∧
    ∀ k < 32, k ≠ 23 → t.fcr31.getLsbD k = (fcr31With s.fcr31 false x x).getLsbD k

/-- V is enabled by bit 11. -/
theorem fpV_and_enable_iff (v : BitVec 32) : fpV &&& fcr31Enable v ≠ 0 ↔ v.getLsbD 11 = true := by
  have enabled : (fcr31Enable v).getLsbD 4 = v.getLsbD 11 := by simp [fcr31Enable]
  have only : ∀ k < 5, fpV.getLsbD k = true → k = 4 := by decide
  rw [and_ne_zero_iff, ← enabled]
  exact ⟨fun ⟨k, hk, hv, he⟩ => only k hk hv ▸ he, fun h => ⟨4, by decide, by decide, h⟩⟩

section
variable (usable : s.copUsable1 = true) {x : FpExceptions}
  (exceptions : (if fpCompareInvalid f cond (s.readFp f fs) (s.readFp f ft) then fpV else 0) = x)
include usable exceptions

theorem fpCmp_completes (disabled : x &&& fcr31Enable s.fcr31 = 0) :
    CompareCompletes s (fpCmp f cond fs ft s) f cond (s.readFp f fs) (s.readFp f ft) x := by
  obtain ⟨v, hv⟩ : ∃ v, v = fcr31SetCond (fcr31SetFlags (fcr31SetCause (fcr31ClearCause s.fcr31) x) x)
    (fpCompare f cond (s.readFp f fs) (s.readFp f ft)) := ⟨_, rfl⟩
  have run : fpCmp f cond fs ft s = complete (·.setFcr31 v) s := by
    rw [fpCmp, withCop1_of usable, exceptions, if_neg (not_not.2 disabled), hv]
  obtain ⟨t, next, advanced, same⟩ := completeFp_spec (s := s) (f := (·.setFcr31 v)) (fpr := s.fpr)
    (fcr31 := v) (by rw [commitLoad_eq]; rfl)
  have fcr31 : t.fcr31 = v := (congrArg State.fcr31 same :)
  rw [fcr31ClearCause_eq, fcr31SetCause_with, fcr31SetFlags_with] at hv
  refine ⟨t, run.trans next, advanced, by rw [fcr31]; exact same, ?_, fun k hk other => ?_⟩
  · rw [fcr31, hv, getLsbD_fcr31SetCond _ _ (by decide), if_pos rfl, fpCompare_iff]
  · rw [fcr31, hv, getLsbD_fcr31SetCond _ _ hk, if_neg other]

theorem fpCmp_raises (enabled : x &&& fcr31Enable s.fcr31 ≠ 0) :
    ∃ t, fpCmp f cond fs ft s = .next t ∧ FpRaised s t false x := by
  rw [fpCmp, withCop1_of usable, exceptions, if_pos enabled]
  exact raiseFp_spec (by rw [fcr31ClearCause_eq, fcr31SetCause_with])

end

/-- The three endings of a compare of the operands `a` and `b`: valid, invalid with V disabled, invalid
with V enabled. -/
theorem fpCmp_spec (usable : s.copUsable1 = true) {a b : Word} (ha : s.readFp f fs = a)
    (hb : s.readFp f ft = b) (run : o = fpCmp f cond fs ft s) :
    (¬ FpInvalidCompare f cond a b → CompareCompletes s o f cond a b 0) ∧
      (FpInvalidCompare f cond a b → s.fcr31.getLsbD 11 = false →
        CompareCompletes s o f cond a b 0x10) ∧
      (FpInvalidCompare f cond a b → s.fcr31.getLsbD 11 = true →
        ∃ t, o = .next t ∧ FpRaised s t false 0x10) := by
  subst ha hb run
  have enabled_iff := fpV_and_enable_iff s.fcr31
  refine ⟨fun valid => ?_, fun invalid off => ?_, fun invalid on => ?_⟩
  · exact fpCmp_completes usable (if_neg (fpCompareInvalid_iff.not.2 valid)) BitVec.zero_and
  · exact fpCmp_completes usable (if_pos (fpCompareInvalid_iff.2 invalid))
      (not_not.1 (enabled_iff.not.2 (by rw [off]; exact Bool.false_ne_true)))
  · exact fpCmp_raises usable (if_pos (fpCompareInvalid_iff.2 invalid)) (enabled_iff.2 on)

end

end Sys2Proof.Machine

namespace Sys2Proof
open Machine

/-- Settles O57: both formats of each condition end as `fpCmp_spec` says. (In
`Sys2Proof.Machine` the name is the model's own new condition bit.) -/
theorem fpCompare : Obligations.FpCompare := by
  intro s fs ft usable w d one compares
  have both {cond : BitVec 4} {single double : Reg → Reg → Instr}
      (runS : exec (single fs ft) s = fpCmp .single cond fs ft s)
      (runD : exec (double fs ft) s = fpCmp .double cond fs ft s) : compares cond single double :=
    ⟨fpCmp_spec usable (readFp_single s fs) (readFp_single s ft) runS, fpCmp_spec usable rfl rfl runD⟩
  exact ⟨both rfl rfl, both rfl rfl, both rfl rfl, both rfl rfl, both rfl rfl, both rfl rfl,
    both rfl rfl, both rfl rfl, both rfl rfl, both rfl rfl, both rfl rfl, both rfl rfl,
    both rfl rfl, both rfl rfl, both rfl rfl, both rfl rfl⟩

end Sys2Proof
end

section
/-! PROOFS. The phases of a step: what is fetched and run, what dispatch and the advise phase leave, and what
an instruction leaves pending. -/

namespace Sys2Proof.Machine

/-! ### The fetch (R502) -/

theorem extractLsb'_two_eq_zero_iff (pc : Word) : pc.extractLsb' 0 2 = 0 ↔ pc.toNat % 4 = 0 := by
  rw [← BitVec.toNat_inj, BitVec.extractLsb'_toNat]
  exact Iff.rfl

/-- The word of a fetch is the four bytes of the bus, the lowest address first (R130, R147). -/
theorem fetchBus_word (s : State) (pa : PAddr) : (s.fetchBus pa 4).extractLsb' 0 32 =
    wordOfBytes (s.busByte true pa 4 0) (s.busByte true pa 4 1) (s.busByte true pa 4 2)
      (s.busByte true pa 4 3) := by
  refine (lowWord_eq _).trans ?_
  rw [State.fetchBus, join_four, BitVec.setWidth_setWidth_of_le _ (by decide)]
  exact BitVec.setWidth_eq _

theorem decodeWord_of_decode {a b c d : Byte} {rest : List Byte} {i : Instr}
    (h : decode (a :: b :: c :: d :: rest) = .ok (i, rest)) :
    decodeWord (wordOfBytes a b c d) = .ok i := by
  rw [decode] at h
  split at h
  · next decoded => cases h; exact decoded
  · cases h

section
variable {s : State}

theorem fetchWord_misaligned (h : s.pc.toNat % 4 ≠ 0) : s.fetchWord = .raises (.addressError .fetch) :=
  if_neg h

variable (aligned : s.pc.toNat % 4 = 0)
include aligned

theorem fetchWord_physical {pa : PAddr} {attr : CacheAttr}
    (maps : s.translate s.pc .fetch = .physical pa attr) :
    s.fetchWord = .word (wordOfBytes (s.busByte true pa 4 0) (s.busByte true pa 4 1)
      (s.busByte true pa 4 2) (s.busByte true pa 4 3)) := by
  rw [State.fetchWord, if_pos aligned, maps, ← fetchBus_word]

theorem fetchWord_faults {kind : FaultKind} (faults : s.translate s.pc .fetch = .raises kind) :
    s.fetchWord = .raises kind := by
  rw [State.fetchWord, if_pos aligned, faults]

end

/-! ### The instruction phase (R503) -/

section
variable {s : State}

theorem step_of_word {w : BitVec 32} {i : Instr} (fetched : s.dispatch.fetchWord = .word w)
    (decoded : decodeWord w = .ok i) : step s = adviseOut (exec i s.dispatch) := by
  simp only [step, fetched, runFetched, decoded]

theorem step_of_fetchFault {kind : FaultKind} (faults : s.dispatch.fetchWord = .raises kind) :
    ∃ t, step s = .next t.advise ∧ Raised s.dispatch t kind 0 (some s.dispatch.pc) := by
  obtain ⟨t, run, raised⟩ := raiseAt_spec kind s.dispatch.pc s.dispatch
  exact ⟨t, adviseOut_next.2 ⟨t, by rw [faults]; exact run, rfl⟩, raised⟩

end

/-- Settles O5: the fetched word is the four bytes, which decode to the instruction. -/
theorem stepRunsDecoded : Obligations.StepRunsDecoded := by
  intro s pa attr rest i b aligned maps decoded
  exact step_of_word (fetchWord_physical aligned maps) (decodeWord_of_decode decoded)

/-- Settles O7: the three cases of the fetch. -/
theorem fetchFaults : Obligations.FetchFaults := by
  intro s d
  simp only [Ne, extractLsb'_two_eq_zero_iff]
  exact ⟨fun misaligned => step_of_fetchFault (fetchWord_misaligned misaligned),
    fun aligned _ faults => step_of_fetchFault (fetchWord_faults aligned faults),
    fun aligned _ _ maps => fetchWord_physical aligned maps⟩

/-! ### Dispatch (R501) -/

section
variable {s : State}

theorem dispatch_fault {p : PendingFault} (h : s.pending = some p) :
    s.dispatch = { s.exceptionEntry p with pending := none } := by
  rw [State.dispatch, h]

theorem dispatch_interrupt (h : s.pending = none) (taken : s.interruptCondition = true) :
    s.dispatch = s.exceptionEntry (s.faultRecord .interrupt 0 none) := by
  rw [State.dispatch, h]; exact if_pos taken

theorem dispatch_quiet (h : s.pending = none) (calm : s.interruptCondition = false) :
    s.dispatch = s := by
  rw [State.dispatch, h]; exact if_neg (by simp [calm])

end

/-- No dispatch touches the load in its delay slot, nor the register it goes to. -/
theorem dispatch_load (s : State) : s.dispatch.ld = s.ld ∧ s.dispatch.gpr = s.gpr := by
  unfold State.dispatch
  split
  · exact ⟨rfl, rfl⟩
  · split <;> exact ⟨rfl, rfl⟩

/-- Settles O8: the latch, the interrupt condition and the pending branch choose among the cases. -/
theorem dispatch : Obligations.Dispatch := by
  intro s
  refine ⟨fun p => dispatch_fault, fun empty taken => ⟨fun b branch => ?_, fun branch => ?_⟩,
    dispatch_quiet, dispatch_pending s, dispatch_load s⟩
  · rw [dispatch_interrupt empty taken, State.faultRecord, branch]; rfl
  · rw [dispatch_interrupt empty taken, State.faultRecord, branch]; rfl

/-! ### The advise phase (R515) -/

/-- Compare is among the values Count runs through exactly when its distance ahead is within the increment. -/
theorem timerFires_iff (old compare : BitVec 32) (inc : Nat) : timerFires old compare inc = true ↔
    ∃ k, 1 ≤ k ∧ k ≤ inc ∧ old + BitVec.ofNat 32 k = compare := by
  rw [timerFires, decide_eq_true_iff]
  constructor
  · rintro ⟨_, within⟩
    refine ⟨(compare - old - 1).toNat + 1, by omega, by omega, ?_⟩
    bv_omega
  · rintro ⟨k, positive, within, rfl⟩
    exact ⟨by omega, by bv_omega⟩

/-- Settles O13: the fields the advise phase writes, and when the timer fires. -/
theorem countAndTimer : Obligations.CountAndTimer := by
  intro s t inc
  refine ⟨rfl, ?_, rfl, rfl⟩
  rw [← timerFires_iff]
  exact Bool.or_eq_true_iff

/-! ### What an instruction leaves pending (R504, R506, R512) -/

section
variable {e : Effect} {s t : State}

/-- ERET drops a pending branch and touches nothing else of the pipeline state (R560). -/
theorem exceptionReturn_pipeline (s : State) : s.exceptionReturn.ld = s.ld ∧
    s.exceptionReturn.br = none ∧ s.exceptionReturn.pending = s.pending := by
  unfold State.exceptionReturn
  split <;> exact ⟨rfl, rfl, rfl⟩

theorem isBranch_eq (i : Instr) : i.isBranch = Effect.isBranch i.effect := rfl

/-- How an instruction with footprint `e` that completed leaves the pipeline state: the latch alone, a load
pending by the footprint, a branch pending only if it is one. -/
structure Completed (e : Effect) (s t : State) : Prop where
  latch : t.pending = s.pending
  ld    : t.ld.map LoadPending.reg = e.loadTarget.filter (· ≠ 0)
  br    : t.br = none ∨ Effect.isBranch e = true ∧ ∃ target, t.br = some ⟨target, s.pc⟩

/-- An instruction completed, or raised a fault with nothing written, or raised FloatingPoint with FCR31
written. -/
theorem ran_completed_or_raised (r : Ran e s t) : Completed e s t ∨
    (∃ kind ce bad, bad.isSome = kind.hasAddress ∧ (ce ≠ 0 → kind = .coprocessorUnusable) ∧
      t = s.raised kind ce bad) ∨
    (e.writesFcr31 = true ∧ ∃ f, t = (s.setFcr31 f).raised .floatingPoint 0 none) := by
  cases r with
  | done u body _ _ eq =>
    have latch := (body_pipeline body).2.2
    have ld := body_ld body
    rw [eq, advance_eq]
    exact .inl ⟨latch, ld, .inl rfl⟩
  | took u target body branch eq =>
    obtain ⟨pc, _, latch⟩ := body_pipeline body
    have ld := body_ld body
    rw [eq, branchTo_eq, pc]
    exact .inl ⟨latch, ld, .inr ⟨branch, target, rfl⟩⟩
  | nullified u body _ eq =>
    have latch := (body_pipeline body).2.2
    have ld := body_ld body
    rw [eq]
    exact .inl ⟨latch, ld, .inl rfl⟩
  | returned he eq =>
    obtain ⟨ld, br, latch⟩ := exceptionReturn_pipeline s.commitLoad
    rw [eq, he]
    exact .inl ⟨latch.trans (commitLoad_pending s), by rw [ld, commitLoad_ld]; rfl, .inl br⟩
  | raised kind ce bad _ address number eq =>
    exact .inr (.inl ⟨kind, ce, bad, address, fun h => (number.resolve_left h).2, eq⟩)
  | raisedFp f writes _ eq => exact .inr (.inr ⟨writes, f, eq⟩)

end

/-- Settles O20: with the latch empty before and after, no fault was raised, so the instruction completed. -/
theorem pipelineState : Obligations.PipelineState := by
  intro i s t run same empty
  have latch := same.trans empty
  obtain ⟨_, ld, br⟩ | ⟨_, _, _, _, _, rfl⟩ | ⟨_, _, rfl⟩ :=
    ran_completed_or_raised ((exec_runs i s).ran t run)
  · refine ⟨ld, fun b hb => ?_, fun plain => br.resolve_right fun h => ?_⟩
    · obtain none | ⟨branch, target, taken⟩ := br
      · cases none.symm.trans hb
      · cases taken.symm.trans hb
        exact ⟨branch, rfl⟩
    · cases (isBranch_eq i ▸ plain).symm.trans h.1
  · cases latch
  · cases latch

/-! ### What a fault leaves of FCR31 (R410, R432, R512) -/

theorem raised_fcr31 (s : State) (kind : FaultKind) (ce : BitVec 2) (bad : Option Word) :
    (s.raised kind ce bad).fcr31 = s.fcr31 := by simp [State.raised]

/-- Where the outcome is a fault, FCR31 has changed in its Cause field at most. -/
structure FaultKeepsFcr31 (s : State) (o : Out) : Prop where
  outside : ∀ t, o = .next t → t.pending ≠ none →
    ∀ k < 32, ¬ (12 ≤ k ∧ k ≤ 17) → t.fcr31.getLsbD k = s.fcr31.getLsbD k

section
variable {s : State} {k : Out}

theorem faultKeepsFcr31_complete {f : State → State} (latch : (f s.commitLoad).pending = none) :
    FaultKeepsFcr31 s (complete f s) := by
  refine ⟨?_⟩
  rintro t ⟨⟩ faulted
  rw [advance_eq] at faulted
  exact absurd latch faulted

theorem faultKeepsFcr31_raised (kind : FaultKind) (ce : BitVec 2) (bad : Option Word) :
    FaultKeepsFcr31 s (.next (s.raised kind ce bad)) := by
  refine ⟨?_⟩
  rintro t ⟨⟩ _ k _ _
  rw [raised_fcr31]

theorem faultKeepsFcr31_raiseFp {f : BitVec 32} {e : Bool} {x : FpExceptions}
    (cause : f = fcr31With s.fcr31 e x 0) :
    FaultKeepsFcr31 s (raise .floatingPoint (s.setFcr31 f)) := by
  refine ⟨?_⟩
  rintro t ⟨⟩ _ k hk outside
  have causes : ¬ (12 ≤ k ∧ k < 17) := by omega
  have unimplemented : k ≠ 17 := by omega
  rw [raised_fcr31, State.setFcr31, cause, getLsbD_fcr31With _ _ _ _ hk]
  simp [causes, unimplemented]

theorem faultKeepsFcr31_ite {c : Prop} [Decidable c] {a b : Out} (ha : FaultKeepsFcr31 s a)
    (hb : FaultKeepsFcr31 s b) : FaultKeepsFcr31 s (if c then a else b) := by split <;> assumption

theorem faultKeepsFcr31_withCop1 (h : FaultKeepsFcr31 s k) : FaultKeepsFcr31 s (withCop1 s k) :=
  faultKeepsFcr31_ite h (faultKeepsFcr31_raised ..)

variable (empty : s.pending = none)
include empty

theorem faultKeepsFcr31_fpFinish (wide : Bool) (fd : Reg) (r : FpResult) :
    FaultKeepsFcr31 s (withCop1 s (fpFinish wide fd r s)) := by
  refine faultKeepsFcr31_withCop1 ?_
  cases r with
  | unimplemented => exact faultKeepsFcr31_raiseFp (by rw [fcr31ClearCause_eq, fcr31SetCauseE_with])
  | value v x =>
    exact faultKeepsFcr31_ite
      (faultKeepsFcr31_raiseFp (by rw [fcr31ClearCause_eq, fcr31SetCause_with]))
      (faultKeepsFcr31_complete (by rw [writeFp_eq]; simp [State.setFcr31, empty]))

theorem faultKeepsFcr31_fpMove (f : FpFormat) (fd fs : Reg) : FaultKeepsFcr31 s (fpMove f fd fs s) :=
  faultKeepsFcr31_withCop1
    (faultKeepsFcr31_complete (by rw [writeFp_eq]; simp [State.setFcr31, empty]))

theorem faultKeepsFcr31_fpCmp (f : FpFormat) (cond : BitVec 4) (fs ft : Reg) :
    FaultKeepsFcr31 s (fpCmp f cond fs ft s) :=
  faultKeepsFcr31_withCop1 (faultKeepsFcr31_ite
    (faultKeepsFcr31_raiseFp (by rw [fcr31ClearCause_eq, fcr31SetCause_with]))
    (faultKeepsFcr31_complete (by simp [State.setFcr31, empty])))

/-- Every instruction that may write FCR31 but CTC1 to it. -/
theorem exec_faultKeepsFcr31 {i : Instr} (writes : i.effect.writesFcr31 = true)
    (other : ∀ rt, i ≠ .ctc1 rt 31) : FaultKeepsFcr31 s (exec i s) := by
  cases i with
  | ctc1 rt fs =>
    have number : fs ≠ 31 := fun h => other rt (h ▸ rfl)
    exact faultKeepsFcr31_withCop1 (if_neg number ▸ faultKeepsFcr31_complete (by simp [empty]))
  | movS | movD => exact faultKeepsFcr31_fpMove empty ..
  | addS | addD | subS | subD | mulS | mulD | divS | divD | sqrtS | sqrtD | absS | absD | negS | negD
  | roundLS | roundLD | truncLS | truncLD | ceilLS | ceilLD | floorLS | floorLD
  | roundWS | roundWD | truncWS | truncWD | ceilWS | ceilWD | floorWS | floorWD
  | cvtSD | cvtSW | cvtSL | cvtDS | cvtDW | cvtDL | cvtWS | cvtWD | cvtLS | cvtLD =>
    exact faultKeepsFcr31_fpFinish empty ..
  | cFS | cFD | cUnS | cUnD | cEqS | cEqD | cUeqS | cUeqD | cOltS | cOltD | cUltS | cUltD
  | cOleS | cOleD | cUleS | cUleD | cSfS | cSfD | cNgleS | cNgleD | cSeqS | cSeqD | cNglS | cNglD
  | cLtS | cLtD | cNgeS | cNgeD | cLeS | cLeD | cNgtS | cNgtD => exact faultKeepsFcr31_fpCmp empty ..
  | _ => cases writes

end

/-! ### Precise faults (R512) -/

/-- What the instruction phase answers: what the decoded instruction does, or a fault with nothing written
(R502, R503). -/
theorem runFetched_next {s t : State} (run : runFetched s.fetchWord s = .next t) :
    (∃ w i, s.fetchWord = .word w ∧ decodeWord w = .ok i ∧ exec i s = .next t) ∨
    ∃ kind bad, bad.isSome = kind.hasAddress ∧ t = s.raised kind 0 bad := by
  unfold runFetched at run
  split at run
  · next w fetched =>
    split at run
    · next i decoded => exact .inl ⟨w, i, fetched, decoded, run⟩
    · cases run; exact .inr ⟨.reservedInstruction, none, rfl, rfl⟩
  · next kind faults => cases run; exact .inr ⟨kind, some s.pc, (fetchWord_raises faults).symm, rfl⟩
  · cases run

/-- Settles O19: a fault is raised with nothing written, or it is a FloatingPoint of an instruction that may
write FCR31. -/
theorem preciseFaults : Obligations.PreciseFaults := by
  intro s t p empty run latched
  have faulted : t.pending ≠ none := by rw [latched]; nofun
  have plain {kind : FaultKind} {ce : BitVec 2} {bad : Option Word} (eq : t = s.raised kind ce bad) :
      t.fcr31 = s.fcr31 ∧ Raised { s with fcr31 := t.fcr31 } t kind ce bad := by
    have same := raised_fcr31 s kind ce bad
    rw [eq, same]
    exact ⟨rfl, raised_spec s kind ce bad⟩
  obtain ⟨w, i, fetched, decoded, run⟩ | ⟨kind, bad, address, eq⟩ := runFetched_next run
  · obtain ⟨latch, _, _⟩ | ⟨kind, ce, bad, address, number, eq⟩ | ⟨writes, f, eq⟩ :=
      ran_completed_or_raised ((exec_runs i s).ran t run)
    · exact absurd (latch.trans empty) faulted
    · obtain ⟨same, raised⟩ := plain eq
      exact ⟨kind, ce, bad, raised, address, number, fun h => absurd same h⟩
    · have written : t.fcr31 = f := by rw [eq]; exact raised_fcr31 ..
      refine ⟨.floatingPoint, 0, none, ?_, rfl, fun h => absurd rfl h, fun _ =>
        ⟨rfl, w, i, fetched, decoded, writes, ?_⟩⟩
      · rw [written, eq]
        exact raised_spec (s.setFcr31 f) ..
      · by_cases move : ∃ rt, i = .ctc1 rt 31
        · exact .inl move
        · exact .inr ((exec_faultKeepsFcr31 empty writes (not_exists.1 move)).outside t run faulted)
  · obtain ⟨same, raised⟩ := plain eq
    exact ⟨kind, 0, bad, raised, address, fun h => absurd rfl h, fun h => absurd same h⟩

end Sys2Proof.Machine
end

section
/-! PROOFS. Exceptions: when an interrupt is taken, what an entry saves and records, its vectors, and the state
a reset leaves. -/

namespace Sys2Proof.Machine

/-! ### The interrupt condition (R556) -/

/-- A line that is asserted and unmasked is a common bit of Cause.IP and Status.IM (R555, R556). -/
theorem unmaskedLine_iff (s : State) : s.causeIp &&& statusIm s.cp0.status ≠ 0 ↔
    ((s.cp0.cause.getLsbD 8 && s.cp0.status.getLsbD 8) ||
      (s.cp0.cause.getLsbD 9 && s.cp0.status.getLsbD 9) || (s.irq.irq2 && s.cp0.status.getLsbD 10) ||
      (s.irq.irq3 && s.cp0.status.getLsbD 11) || (s.irq.irq4 && s.cp0.status.getLsbD 12) ||
      (s.irq.irq5 && s.cp0.status.getLsbD 13) || (s.irq.irq6 && s.cp0.status.getLsbD 14) ||
      ((s.irq.irq7 || s.timerIp) && s.cp0.status.getLsbD 15)) = true := by
  rw [and_ne_zero_iff]
  simp only [Nat.exists_lt_succ_right, Nat.not_lt_zero, false_and, exists_false, false_or,
    Bool.or_eq_true, Bool.and_eq_true, State.causeIp, cause_eq, statusIm,
    BitVec.getLsbD_extractLsb', BitVec.getLsbD_append, BitVec.getLsbD_ofBool]
  simp

theorem interruptCondition_iff (s : State) : s.interruptCondition = true ↔
    s.cp0.status.getLsbD 0 = true ∧ s.cp0.status.getLsbD 1 = false ∧ s.cp0.status.getLsbD 2 = false ∧
      s.causeIp &&& statusIm s.cp0.status ≠ 0 := by
  simp only [State.interruptCondition, Bool.and_eq_true, Bool.not_eq_true', decide_eq_true_eq, and_assoc]
  rfl

/-- No interrupt where IE is clear, or EXL set. -/
theorem interruptCondition_eq_false {s : State}
    (h : s.cp0.status.getLsbD 0 = false ∨ s.cp0.status.getLsbD 1 = true) :
    s.interruptCondition = false := by
  rw [Bool.eq_false_iff, Ne, interruptCondition_iff]
  rintro ⟨enabled, level, _⟩
  rw [enabled, level] at h
  simp at h

/-- Settles O9: the three fields of Status, and the lines by `unmaskedLine_iff`. -/
theorem interruptCondition : Obligations.InterruptCondition := by
  intro s m
  refine ⟨?_, fun empty disabled => dispatch_quiet empty (interruptCondition_eq_false (.inl disabled)),
    fun _ => dispatch_fault⟩
  rw [interruptCondition_iff, unmaskedLine_iff]

/-! ### What an entry saves (R550) -/

/-- The low part of a field. -/
theorem extractLsb'_zero_extractLsb' {w start len len' : Nat} (h : len ≤ len') (x : BitVec w) :
    (x.extractLsb' start len').extractLsb' 0 len = x.extractLsb' start len := by
  ext k hk
  simp [show k < len' by omega]

/-- Cause after an entry, field by field; `code_causeAfter` is the code. -/
theorem causeAfter_fields (old : BitVec 32) (bd : Bool) (ce : BitVec 2) (code : BitVec 5) :
    (causeAfter old bd ce code).getLsbD 31 = bd ∧
    (causeAfter old bd ce code).extractLsb' 28 2 = ce ∧
    (causeAfter old bd ce code).extractLsb' 8 2 = old.extractLsb' 8 2 ∧
    (causeAfter old bd ce code).getLsbD 30 = false ∧
    (causeAfter old bd ce code).extractLsb' 16 12 = 0 ∧
    (causeAfter old bd ce code).getLsbD 7 = false ∧
    (causeAfter old bd ce code).extractLsb' 0 2 = 0 := by
  simp (disch := decide) only [causeAfter, extractLsb'_append_high, extractLsb'_append_low,
    Nat.reduceSub, extractLsb'_zero_extractLsb', BitVec.getLsbD_append]
  simp

theorem getLsbD_setExl (st : BitVec 32) {k : Nat} (hk : k < 32) :
    (st ||| 0x2).getLsbD k = (decide (k = 1) || st.getLsbD k) := by
  rw [BitVec.getLsbD_or, Bool.or_comm]
  congr 1
  revert k; decide

/-- An exception records nothing but the registers of a bad address (R552). -/
theorem recordBadAddress_eq (c : Cp0) (kind : FaultKind) (bad : Option Word) :
    c.recordBadAddress kind bad = { c with
      badVAddr := (c.recordBadAddress kind bad).badVAddr
      context  := (c.recordBadAddress kind bad).context
      xContext := (c.recordBadAddress kind bad).xContext
      entryHi  := (c.recordBadAddress kind bad).entryHi } := by
  unfold Cp0.recordBadAddress
  split <;> rfl

section
variable (s : State) (p : PendingFault)

theorem exceptionEntry_epc : (s.exceptionEntry p).cp0.epc =
    if s.cp0.status.getLsbD 1 then s.cp0.epc else p.savedPc := by
  rw [State.exceptionEntry, recordBadAddress_eq]; rfl

theorem exceptionEntry_cause : (s.exceptionEntry p).cp0.cause = causeAfter s.cp0.cause
    (if s.cp0.status.getLsbD 1 then s.cp0.cause.getLsbD 31 else p.inDelay) p.ce (excCode p.kind) := by
  rw [State.exceptionEntry, recordBadAddress_eq]; rfl

theorem exceptionEntry_status : (s.exceptionEntry p).cp0.status = s.cp0.status ||| 0x2 := by
  rw [State.exceptionEntry, recordBadAddress_eq]

theorem exceptionEntry_exl : (s.exceptionEntry p).cp0.status.getLsbD 1 = true := by
  rw [exceptionEntry_status, getLsbD_setExl _ (by decide)]; rfl

theorem exceptionEntry_mode : (s.exceptionEntry p).mode = .kernel :=
  (mode_kernel_iff _).2 (.inl (exceptionEntry_exl s p))

/-- The system-control registers an entry may change (R550, R552). -/
theorem exceptionEntry_cp0_frame : { (s.exceptionEntry p).cp0 with
      epc := s.cp0.epc, cause := s.cp0.cause, status := s.cp0.status, badVAddr := s.cp0.badVAddr,
      context := s.cp0.context, xContext := s.cp0.xContext, entryHi := s.cp0.entryHi } = s.cp0 := by
  rw [State.exceptionEntry, recordBadAddress_eq]

end

/-- Settles O10: EPC, Cause and Status of the entry, each by its own lemma. -/
theorem exceptionEntryRegisters : Obligations.ExceptionEntryRegisters := by
  intro s p t
  have epc : t.cp0.epc = _ := exceptionEntry_epc s p
  have cause : t.cp0.cause = _ := exceptionEntry_cause s p
  have status : t.cp0.status = _ := exceptionEntry_status s p
  obtain ⟨bd, ce, software, low30, reserved, low7, low⟩ := causeAfter_fields s.cp0.cause
    (if s.cp0.status.getLsbD 1 then s.cp0.cause.getLsbD 31 else p.inDelay) p.ce (excCode p.kind)
  rw [← cause] at bd ce software low30 reserved low7 low
  refine ⟨fun exl => ?_, fun exl => ?_, ?_, ce, software, low30, reserved, low7, low, fun k hk => ?_,
    exceptionEntry_mode s p, interruptCondition_eq_false (.inr (exceptionEntry_exl s p)), rfl, rfl,
    exceptionEntry_cp0_frame s p⟩
  · rw [epc, bd, exl]; exact ⟨rfl, rfl⟩
  · rw [epc, bd, exl]; exact ⟨rfl, rfl⟩
  · rw [cause, code_causeAfter]
    cases p.kind with
    | tlbMiss i | tlbInvalid i | addressError i => cases i <;> rfl
    | _ => rfl
  · rw [status, getLsbD_setExl _ hk]

/-! ### The vectors (R551) -/

theorem vectorOffset_refill {s : State} {kind : FaultKind} (miss : ∃ i, kind = .tlbMiss i)
    (exl : s.cp0.status.getLsbD 1 = false) :
    s.vectorOffset kind = if s.xAddr then 0x080 else 0x000 := by
  obtain ⟨i, rfl⟩ := miss
  rw [State.vectorOffset, statusExl, exl]; rfl

theorem vectorOffset_general {s : State} {kind : FaultKind}
    (other : ¬ ((∃ i, kind = .tlbMiss i) ∧ s.cp0.status.getLsbD 1 = false)) :
    s.vectorOffset kind = 0x180 := by
  rw [State.vectorOffset, statusExl]
  cases exl : s.cp0.status.getLsbD 1 with
  | true => rfl
  | false =>
    cases kind with
    | tlbMiss i => exact absurd ⟨⟨i, rfl⟩, exl⟩ other
    | _ => rfl

theorem vectorOffset_cases (s : State) (kind : FaultKind) :
    s.vectorOffset kind = 0x000 ∨ s.vectorOffset kind = 0x080 ∨ s.vectorOffset kind = 0x180 := by
  unfold State.vectorOffset
  split_ifs <;> simp

/-- Every vector lies in an unmapped window, by BEV the uncached or the cached one. -/
theorem vector_window (st : BitVec 32) {offset : Word}
    (h : offset = 0x000 ∨ offset = 0x080 ∨ offset = 0x180) :
    inRange (vectorBase st + offset) = true ∧
      segKind .kernel ((vectorBase st + offset).extractLsb' 29 3) =
        if st.getLsbD 22 then .uncached else .cached := by
  unfold vectorBase statusBev
  generalize st.getLsbD 22 = bev
  obtain rfl | rfl | rfl := h <;> revert bev <;> decide

theorem generalVector_eq (st : BitVec 32) : vectorBase st + 0x180 =
    if st.getLsbD 22 then 0xFFFFFFFFBFC00380 else 0xFFFFFFFF80000180 := by
  unfold vectorBase statusBev
  split <;> rfl

theorem exceptionEntry_pc_general {s : State} {p : PendingFault}
    (other : ¬ ((∃ i, p.kind = .tlbMiss i) ∧ s.cp0.status.getLsbD 1 = false)) :
    (s.exceptionEntry p).pc =
      if s.cp0.status.getLsbD 22 then 0xFFFFFFFFBFC00380 else 0xFFFFFFFF80000180 := by
  rw [← generalVector_eq, ← vectorOffset_general other]; rfl

/-- Settles O11: the offset by `vectorOffset_refill` and `vectorOffset_general`, the base by BEV; a vector is
mapped by its window alone. -/
theorem exceptionVectors : Obligations.ExceptionVectors := by
  intro s p pc bev refill ksu extended
  have start : pc = vectorBase s.cp0.status + s.vectorOffset p.kind := rfl
  have xAddr (exl : s.cp0.status.getLsbD 1 = false) : s.xAddr = extended := by
    rw [xAddr_eq, exl]
    simp only [Bool.false_eq_true, false_or]
    rfl
  refine ⟨fun h plain => ?_, fun h wide => ?_, exceptionEntry_pc_general, ?_⟩
  · rw [start, vectorOffset_refill h.1 h.2, xAddr h.2, plain]
    unfold vectorBase statusBev
    split <;> rfl
  · rw [start, vectorOffset_refill h.1 h.2, xAddr h.2, wide]
    unfold vectorBase statusBev
    split <;> rfl
  · obtain ⟨range, window⟩ := vector_window s.cp0.status (vectorOffset_cases s p.kind)
    rw [← exceptionEntry_mode s p] at window
    cases boot : bev with
    | true => exact translate_uncached range (window.trans (if_pos boot))
    | false => exact translate_cached range (window.trans (if_neg (Bool.eq_false_iff.1 boot)))

/-! ### What an entry records of a bad address (R552) -/

theorem recordBadAddress_mapped (c : Cp0) {kind : FaultKind} (va : Word)
    (h : (∃ i, kind = .tlbMiss i ∨ kind = .tlbInvalid i) ∨ kind = .tlbModified) :
    c.recordBadAddress kind (some va) = { c with
      badVAddr := va
      context  := contextWith c.context va
      xContext := xContextWith c.xContext va
      entryHi  := entryHiWith c.entryHi va } := by
  obtain ⟨i, rfl | rfl⟩ | rfl := h <;> rfl

theorem recordBadAddress_without (c : Cp0) {kind : FaultKind} (bad : Option Word)
    (h : kind.hasAddress = false) : c.recordBadAddress kind bad = c := by
  cases kind with
  | addressError i | tlbMiss i | tlbInvalid i => cases h
  | tlbModified => cases h
  | _ => rfl

theorem contextWith_fields (old va : Word) :
    (contextWith old va).extractLsb' 4 19 = va.extractLsb' 13 19 ∧
    (contextWith old va).extractLsb' 23 41 = old.extractLsb' 23 41 := by
  simp (disch := decide) only [contextWith, extractLsb'_append_high, extractLsb'_append_low]
  simp

theorem xContextWith_fields (old va : Word) :
    (xContextWith old va).extractLsb' 4 27 = va.extractLsb' 13 27 ∧
    (xContextWith old va).extractLsb' 31 2 = va.extractLsb' 62 2 ∧
    (xContextWith old va).extractLsb' 33 31 = old.extractLsb' 33 31 := by
  simp (disch := decide) only [xContextWith, extractLsb'_append_high, extractLsb'_append_low]
  simp

theorem entryHiWith_fields (old va : Word) :
    (entryHiWith old va).extractLsb' 13 27 = va.extractLsb' 13 27 ∧
    (entryHiWith old va).extractLsb' 62 2 = va.extractLsb' 62 2 ∧
    (entryHiWith old va).extractLsb' 0 8 = old.extractLsb' 0 8 := by
  simp (disch := decide) only [entryHiWith, extractLsb'_append_high, extractLsb'_append_low]
  simp

/-- An entry takes the registers of a bad address from `recordBadAddress`, whatever the exception level. -/
theorem exceptionEntry_record {s : State} {p : PendingFault} {c : Cp0}
    (record : s.cp0.recordBadAddress p.kind p.badvaddr = c) :
    (s.exceptionEntry p).cp0.badVAddr = c.badVAddr ∧ (s.exceptionEntry p).cp0.context = c.context ∧
      (s.exceptionEntry p).cp0.xContext = c.xContext ∧ (s.exceptionEntry p).cp0.entryHi = c.entryHi :=
  record ▸ ⟨rfl, rfl, rfl, rfl⟩

/-- Settles O12: what `recordBadAddress` gives for each kind, and the fields of the registers it changes. -/
theorem exceptionRecords : Obligations.ExceptionRecords := by
  intro s va ce bd pc after
  refine ⟨fun i => exceptionEntry_record rfl, fun kind mapped => ?_,
    fun kind bad without => exceptionEntry_record (recordBadAddress_without s.cp0 bad without)⟩
  obtain ⟨badVAddr, context, xContext, entryHi⟩ := exceptionEntry_record
    (p := ⟨kind, ce, some va, bd, pc⟩) (recordBadAddress_mapped s.cp0 va mapped)
  obtain ⟨vpn2, pteBase⟩ := contextWith_fields s.cp0.context va
  obtain ⟨xVpn2, xRegion, xPteBase⟩ := xContextWith_fields s.cp0.xContext va
  refine ⟨badVAddr, ?_⟩
  simp only [after, context, xContext, entryHi]
  exact ⟨vpn2, pteBase, xVpn2, xRegion, xPteBase, entryHiWith_fields s.cp0.entryHi va⟩

/-! ### Reset (R600, R602) -/

/-- EP and BE of Config at reset, whatever EC is (R67, R91). -/
theorem reset_config_endianness (ec : BitVec 3) :
    (0#1 ++ ec ++ 0x006E460#28).extractLsb' 24 4 = 0 ∧
      (0#1 ++ ec ++ 0x006E460#28).getLsbD 15 = true := by
  revert ec; decide

/-- Settles O14: the values are those of the reset state, which a later reset writes again; the vector lies in
the uncached window. -/
theorem resetValues : Obligations.ResetValues := by
  unfold Obligations.ResetValues
  intro holds
  obtain ⟨ep, be⟩ := reset_config_endianness Config.configEc
  have reset : holds State.reset :=
    ⟨rfl, rfl, rfl, rfl, rfl, rfl, ep, be, (reset_config_fields _).2, rfl, rfl, rfl, rfl, rfl, rfl, rfl⟩
  refine ⟨reset, fun s => ⟨reset, rfl, rfl, rfl, dispatch_quiet rfl ?_, ?_⟩⟩
  · have disabled : (0x00400004 : BitVec 32).getLsbD 0 = false := by decide
    exact interruptCondition_eq_false (.inl disabled)
  · have mode : s.hostReset.mode = State.reset.mode := mode_congr rfl
    exact translate_uncached (va := 0xFFFFFFFFBFC00000) (by decide) (by rw [mode]; decide)

end Sys2Proof.Machine
end

section
/-! PROOFS. The coprocessors: which instructions test one, what an unusable one raises, and that without
coprocessor 0 no instruction changes the system state but LLAddr, nor depends on what is hidden of it. -/

namespace Sys2Proof.Machine

/-! ### The instructions of a coprocessor (R546) -/

/-- The coprocessor an opcode belongs to: COP0 and CACHE, or COP1 with its loads and stores. -/
def coprocessorOfOpcode (op : BitVec 6) : Option (BitVec 2) :=
  if op = 0x10 ∨ op = 0x2F then some 0
  else if op ∈ [0x11#6, 0x31#6, 0x35#6, 0x39#6, 0x3D#6] then some 1
  else none

theorem coprocessorOfOpcode_eq_zero_iff (op : BitVec 6) :
    coprocessorOfOpcode op = some 0 ↔ op = 0x10 ∨ op = 0x2F := by
  revert op; decide

theorem coprocessorOfOpcode_eq_one_iff (op : BitVec 6) :
    coprocessorOfOpcode op = some 1 ↔ op ∈ [0x11#6, 0x31#6, 0x35#6, 0x39#6, 0x3D#6] := by
  revert op; decide

theorem coprocessor_eq_of_opcode {i : Instr} {op : BitVec 6} (opcode : opcodeField (encode i) = op)
    (belongs : i.coprocessor = coprocessorOfOpcode op) :
    i.coprocessor = coprocessorOfOpcode (opcodeField (encode i)) := opcode ▸ belongs

/-- The coprocessor of an instruction is that of its opcode, format by format (R161 to R166). -/
theorem coprocessor_eq_ofOpcode (i : Instr) :
    i.coprocessor = coprocessorOfOpcode (opcodeField (encode i)) := by
  cases i with
  | j | jal | cop2 => exact coprocessor_eq_of_opcode (opcodeField_jWord ..) rfl
  | syscall | brk => exact coprocessor_eq_of_opcode (opcodeField_callWord ..) rfl
  | tge | tgeu | tlt | tltu | teq | tne =>
    exact coprocessor_eq_of_opcode (opcodeField_trapWord ..) rfl
  | mfc0 | dmfc0 | mtc0 | dmtc0 | mfc1 | dmfc1 | cfc1 | mtc1 | dmtc1 | ctc1 =>
    exact coprocessor_eq_of_opcode (opcodeField_moveWord ..) rfl
  | tlbr | tlbwi | tlbwr | tlbp | eret =>
    exact coprocessor_eq_of_opcode (opcodeField_coWord ..) rfl
  | addi | addiu | slti | sltiu | andi | ori | xori | daddi | daddiu | lui
  | beq | bne | blez | bgtz | beql | bnel | blezl | bgtzl
  | bltz | bgez | bltzl | bgezl | bltzal | bgezal | bltzall | bgezall
  | lb | lbu | lh | lhu | lw | lwu | ld | lwl | lwr | ldl | ldr | sb | sh | sw | sd | swl | swr | sdl | sdr
  | ll | lld | sc | scd | cache | tgei | tgeiu | tlti | tltiu | teqi | tnei
  | lwc1 | ldc1 | swc1 | sdc1 | bc1f | bc1t | bc1fl | bc1tl =>
    exact coprocessor_eq_of_opcode (opcodeField_iWord ..) rfl
  | add | addu | sub | subu | and | or | xor | nor | slt | sltu | dadd | daddu | dsub | dsubu
  | sll | srl | sra | dsll | dsrl | dsra | dsll32 | dsrl32 | dsra32
  | sllv | srlv | srav | dsllv | dsrlv | dsrav | mult | multu | div | divu | dmult | dmultu | ddiv | ddivu
  | mfhi | mthi | mflo | mtlo | jr | jalr | sync =>
    exact coprocessor_eq_of_opcode (opcodeField_rWord ..) rfl
  | _ => exact coprocessor_eq_of_opcode (opcodeField_fpWord ..) rfl

section
variable {i : Instr} {s : State}

/-- An instruction of coprocessor 0 tests it before anything else (R370(a), R546). -/
theorem exec_cop0_unusable (needs : i.coprocessor = some 0) (h : s.copUsable0 = false) :
    exec i s = raiseCop 0 s := by
  cases i with
  | cache | mfc0 | dmfc0 | mtc0 | dmtc0 | tlbr | tlbwi | tlbwr | tlbp | eret => exact withCop0_of_not h _
  | _ => exact absurd needs (of_decide_eq_false rfl)

/-- An instruction of coprocessor 1 tests it before anything else (R400(a), R432, R546). -/
theorem exec_cop1_unusable (needs : i.coprocessor = some 1) (h : s.copUsable1 = false) :
    exec i s = raiseCop 1 s := by
  cases i with
  | lwc1 | ldc1 | swc1 | sdc1 | mfc1 | dmfc1 | cfc1 | mtc1 | dmtc1 | ctc1 | bc1f | bc1t | bc1fl | bc1tl
  | addS | addD | subS | subD | mulS | mulD | divS | divD | sqrtS | sqrtD | absS | absD | movS | movD
  | negS | negD | roundLS | roundLD | truncLS | truncLD | ceilLS | ceilLD | floorLS | floorLD
  | roundWS | roundWD | truncWS | truncWD | ceilWS | ceilWD | floorWS | floorWD
  | cvtSD | cvtSW | cvtSL | cvtDS | cvtDW | cvtDL | cvtWS | cvtWD | cvtLS | cvtLD
  | cFS | cFD | cUnS | cUnD | cEqS | cEqD | cUeqS | cUeqD | cOltS | cOltD | cUltS | cUltD
  | cOleS | cOleD | cUleS | cUleD | cSfS | cSfD | cNgleS | cNgleD | cSeqS | cSeqD | cNglS | cNglD
  | cLtS | cLtD | cNgeS | cNgeD | cLeS | cLeD | cNgtS | cNgtD => exact withCop1_of_not h _
  | _ => exact absurd needs (of_decide_eq_false rfl)

end

/-- Settles O24: the tests of an instruction's coprocessor by its opcode, and the entry they lead to. -/
theorem coprocessorUnusable : Obligations.CoprocessorUnusable := by
  intro i s kernel
  have usable0 : s.copUsable0 = true ↔ kernel ∨ s.cp0.status.getLsbD 28 = true := by
    rw [copUsable0_iff, mode_kernel_iff]
  refine ⟨mode_kernel_iff s, usable0, copUsable1_iff s, fun needs outside clear => ?_,
    fun needs clear => ?_, ?_, ?_, fun p kind => ⟨?_, ?_, exceptionEntry_pc_general ?_⟩⟩
  · have unusable : s.copUsable0 = false := by
      rw [Bool.eq_false_iff, Ne, copUsable0_iff, clear]
      simpa using outside
    exact exec_cop0_unusable needs unusable ▸ raiseCop_spec 0 s
  · exact exec_cop1_unusable needs clear ▸ raiseCop_spec 1 s
  · rw [coprocessor_eq_ofOpcode, coprocessorOfOpcode_eq_zero_iff]
  · rw [coprocessor_eq_ofOpcode, coprocessorOfOpcode_eq_one_iff]
  · rw [exceptionEntry_cause, code_causeAfter, kind]; rfl
  · rw [exceptionEntry_cause]; exact (causeAfter_fields ..).2.1
  · rintro ⟨⟨_, miss⟩, _⟩
    rw [kind] at miss; cases miss

/-! ### Without coprocessor 0: what an instruction may change (R571, R572) -/

/-- The TLB is as before, and so is every system-control register but LLAddr. -/
def KeepsSystem (s t : State) : Prop :=
  t.tlb = s.tlb ∧ { t.cp0 with llAddr := s.cp0.llAddr } = s.cp0

theorem keepsSystem_of_eq {s t : State} (tlb : t.tlb = s.tlb) (cp0 : t.cp0 = s.cp0) : KeepsSystem s t :=
  ⟨tlb, by rw [cp0]⟩

/-- The footprints that name system state beside LLAddr. -/
def Effect.isSystem (e : Effect) : Bool :=
  match e with
  | .cp0 _ | .tlbRead | .tlbWrite | .tlbProbe | .exceptionReturn => true
  | _ => false

theorem coprocessor_of_isSystem {i : Instr} (h : Effect.isSystem i.effect = true) :
    i.coprocessor = some 0 := by
  cases i with
  | mtc0 | dmtc0 | tlbr | tlbwi | tlbwr | tlbp | eret => rfl
  | _ => cases h

section
variable {e : Effect} {s t u : State}

theorem keepsSystem_raised (s : State) (kind : FaultKind) (ce : BitVec 2) (bad : Option Word) :
    KeepsSystem s (s.raised kind ce bad) := by
  apply keepsSystem_of_eq <;> simp [State.raised]

/-- The pc and the branch state are no system state. -/
theorem KeepsSystem.sequenced (h : KeepsSystem s u) (pc : Word) (br : Option BranchPending) :
    KeepsSystem s { u with pc := pc, br := br } := h

/-- An instruction's own writes, footprint by footprint. -/
theorem keepsSystem_body (b : Body s e u) (plain : Effect.isSystem e = false) : KeepsSystem s u := by
  cases b with
  | loadLinked rt pa v =>
    constructor <;> simp [State.delayLoad, State.setLink]
  | cp0 | tlbRead | tlbWrite | tlbProbe => cases plain
  | fpr32 => rw [writeF32Move_eq]; apply keepsSystem_of_eq <;> simp
  | fprFcr31 => rw [writeFp_eq]; apply keepsSystem_of_eq <;> simp [State.setFcr31]
  | _ =>
    apply keepsSystem_of_eq <;>
      simp [State.delayLoad, State.store, State.setHi, State.setLo, State.setLoHi, State.writeF64,
        State.setFpr, State.setFcr31]

theorem keepsSystem_ran (r : Ran e s t) (plain : Effect.isSystem e = false) : KeepsSystem s t := by
  cases r with
  | done u body _ _ eq => rw [eq, advance_eq]; exact (keepsSystem_body body plain).sequenced _ _
  | took u target body _ eq => exact eq ▸ (keepsSystem_body body plain).sequenced _ _
  | nullified u body _ eq => exact eq ▸ (keepsSystem_body body plain).sequenced _ _
  | returned he => rw [he] at plain; cases plain
  | raised kind ce bad _ _ _ eq => rw [eq]; exact keepsSystem_raised s kind ce bad
  | raisedFp f _ _ eq => rw [eq]; exact keepsSystem_raised (s.setFcr31 f) ..

end

/-- What an unusable coprocessor 0 leaves an instruction to write: an instruction whose footprint names more
system state than LLAddr raises instead. -/
theorem exec_keepsSystem {i : Instr} {s t : State} (unusable : s.copUsable0 = false)
    (run : exec i s = .next t) : KeepsSystem s t := by
  cases system : Effect.isSystem i.effect with
  | false => exact keepsSystem_ran ((exec_runs i s).ran t run) system
  | true =>
    rw [exec_cop0_unusable (coprocessor_of_isSystem system) unusable] at run
    cases run
    exact keepsSystem_raised ..

/-! ### Without coprocessor 0: what an instruction may depend on (R571, R572) -/

section
variable {c : Cp0} {irq : IrqLines} {tip : Bool} {rng : Nat} {s : State}

theorem agree_trappingWord (rd : Reg) (o : Bool) (r : BitVec 32) :
    AgreeBut c irq tip rng (trappingWord rd o r (s.hideSystem c irq tip rng)) (trappingWord rd o r s) :=
  agree_ite (agree_raise _) (agree_writeBack ..)

theorem agree_trappingDouble (rd : Reg) (o : Bool) (r : Word) :
    AgreeBut c irq tip rng (trappingDouble rd o r (s.hideSystem c irq tip rng)) (trappingDouble rd o r s) :=
  agree_withOps64 (agree_ite (agree_raise _) (agree_writeBack ..))

theorem agree_plainDouble (rd : Reg) (r : Word) :
    AgreeBut c irq tip rng (plainDouble rd r (s.hideSystem c irq tip rng)) (plainDouble rd r s) :=
  agree_withOps64 (agree_writeBack ..)

theorem agree_setLoHi (r : Word × Word) :
    AgreeBut c irq tip rng (complete (·.setLoHi r) (s.hideSystem c irq tip rng)) (complete (·.setLoHi r) s) :=
  agree_complete fun _ => rfl

theorem agree_loadGpr (n : Nat) (ext : Word → Word) (rt base : Reg) (imm : BitVec 16) :
    AgreeBut c irq tip rng (loadGpr n ext rt base imm (s.hideSystem c irq tip rng))
      (loadGpr n ext rt base imm s) :=
  agree_withAligned fun _ => agree_loadBack ..

theorem agree_storeVirt (n : Nat) (va v : Word) :
    AgreeBut c irq tip rng (storeVirt n va v (s.hideSystem c irq tip rng)) (storeVirt n va v s) :=
  agree_withAligned fun _ => agree_complete fun _ => rfl

/-- LLAddr is hidden. -/
theorem setLink_hideSystem (u : State) (pa : PAddr) :
    ((u.hideSystem c irq tip rng).setLink pa).hideSystem c irq tip rng =
      (u.setLink pa).hideSystem c irq tip rng := hideSystem_idem { u with llbit := true }

theorem agree_loadLinked (n : Nat) (ext : Word → Word) (rt base : Reg) (imm : BitVec 16) :
    AgreeBut c irq tip rng (loadLinked n ext rt base imm (s.hideSystem c irq tip rng))
      (loadLinked n ext rt base imm s) :=
  agree_withAligned fun pa => complete_hideSystem fun u => setLink_hideSystem (u.delayLoad rt _) pa

theorem agree_jump (target : Word) :
    AgreeBut c irq tip rng (completeBranch id target (s.hideSystem c irq tip rng))
      (completeBranch id target s) := agree_branch target fun _ => rfl

theorem agree_link (rd : Reg) (pc target : Word) :
    AgreeBut c irq tip rng (completeBranch (State.link rd pc) target (s.hideSystem c irq tip rng))
      (completeBranch (State.link rd pc) target s) :=
  agree_branch target fun u => setGpr_hideSystem u rd (pc + 8)

theorem agree_condBranch (taken : Bool) (imm : BitVec 16) :
    AgreeBut c irq tip rng (condBranch taken id imm (s.hideSystem c irq tip rng))
      (condBranch taken id imm s) := agree_jump _

theorem agree_condLink (taken : Bool) (rd : Reg) (pc : Word) (imm : BitVec 16) :
    AgreeBut c irq tip rng (condBranch taken (State.link rd pc) imm (s.hideSystem c irq tip rng))
      (condBranch taken (State.link rd pc) imm s) := agree_link rd pc _

theorem agree_condBranchLikely (taken : Bool) (imm : BitVec 16) :
    AgreeBut c irq tip rng (condBranchLikely taken id imm (s.hideSystem c irq tip rng))
      (condBranchLikely taken id imm s) := agree_ite (agree_jump _) (agree_nullify fun _ => rfl)

theorem agree_condLinkLikely (taken : Bool) (rd : Reg) (pc : Word) (imm : BitVec 16) :
    AgreeBut c irq tip rng (condBranchLikely taken (State.link rd pc) imm (s.hideSystem c irq tip rng))
      (condBranchLikely taken (State.link rd pc) imm s) :=
  agree_ite (agree_link rd pc _) (agree_nullify fun u => setGpr_hideSystem u rd (pc + 8))

theorem agree_trapIf (o : Bool) :
    AgreeBut c irq tip rng (trapIf o (s.hideSystem c irq tip rng)) (trapIf o s) :=
  agree_ite (agree_raise _) (agree_complete fun _ => rfl)

theorem agree_fpMove (f : FpFormat) (fd fs : Reg) :
    AgreeBut c irq tip rng (fpMove f fd fs (s.hideSystem c irq tip rng)) (fpMove f fd fs s) :=
  agree_withCop1 (agree_complete fun u => writeFp_hideSystem (u.setFcr31 _) _ fd _)

theorem agree_fpCmp (f : FpFormat) (cond : BitVec 4) (fs ft : Reg) :
    AgreeBut c irq tip rng (fpCmp f cond fs ft (s.hideSystem c irq tip rng)) (fpCmp f cond fs ft s) :=
  agree_withCop1 (agree_ite (agree_raise (s := s.setFcr31 _) _) (agree_complete fun _ => rfl))

theorem agree_ctc1 (rt fs : Reg) :
    AgreeBut c irq tip rng (execCtc1 rt fs (s.hideSystem c irq tip rng)) (execCtc1 rt fs s) :=
  agree_withCop1 (agree_ite
    (agree_ite (agree_raise (s := s.setFcr31 _) _) (agree_complete fun _ => rfl))
    (agree_complete fun _ => rfl))

/-- Every instruction answers alike in two states that differ in the hidden system state, operation by
operation; those of coprocessor 0 raise. -/
theorem exec_agree (i : Instr) (unusable : s.copUsable0 = false) :
    AgreeBut c irq tip rng (exec i (s.hideSystem c irq tip rng)) (exec i s) := by
  cases i with
  | addi | add | sub => exact agree_trappingWord ..
  | daddi | dadd | dsub => exact agree_trappingDouble ..
  | daddiu | daddu | dsubu | dsll | dsrl | dsra | dsll32 | dsrl32 | dsra32 | dsllv | dsrlv | dsrav =>
    exact agree_plainDouble ..
  | addiu | slti | sltiu | andi | ori | xori | lui | addu | subu | and | or | xor | nor | slt | sltu
  | sll | srl | sra | sllv | srlv | srav | mfhi | mflo => exact agree_writeBack ..
  | mult | multu | div | divu => exact agree_setLoHi _
  | dmult | dmultu | ddiv | ddivu => exact agree_withOps64 (agree_setLoHi _)
  | mthi | mtlo | sync => exact agree_complete fun _ => rfl
  | j | jr => exact agree_jump _
  | jal | jalr => exact agree_link ..
  | beq | bne | blez | bgtz | bltz | bgez => exact agree_condBranch ..
  | bltzal | bgezal => exact agree_condLink ..
  | beql | bnel | blezl | bgtzl | bltzl | bgezl => exact agree_condBranchLikely ..
  | bltzall | bgezall => exact agree_condLinkLikely ..
  | lb | lbu | lh | lhu | lw => exact agree_loadGpr ..
  | lwu | ld => exact agree_withOps64 (agree_loadGpr ..)
  | lwl | lwr => exact agree_withTranslation fun _ => agree_loadBack ..
  | ldl | ldr => exact agree_withOps64 (agree_withTranslation fun _ => agree_loadBack ..)
  | sb | sh | sw => exact agree_storeVirt ..
  | sd => exact agree_withOps64 (agree_storeVirt ..)
  | swl | swr => exact agree_withTranslation fun _ => agree_complete fun _ => rfl
  | sdl | sdr => exact agree_withOps64 (agree_withTranslation fun _ => agree_complete fun _ => rfl)
  | ll => exact agree_loadLinked ..
  | lld => exact agree_withOps64 (agree_loadLinked ..)
  | sc => exact agree_storeConditional ..
  | scd => exact agree_withOps64 (agree_storeConditional ..)
  | syscall | brk | cop2 => exact agree_raise _
  | tge | tgeu | tlt | tltu | teq | tne | tgei | tgeiu | tlti | tltiu | teqi | tnei => exact agree_trapIf _
  | cache | mfc0 | dmfc0 | mtc0 | dmtc0 | tlbr | tlbwi | tlbwr | tlbp | eret =>
    exact agree_withCop0 unusable
  | lwc1 =>
    exact agree_withCop1 (agree_withAligned fun _ => agree_complete fun u => writeF32Move_hideSystem u ..)
  | ldc1 => exact agree_withCop1 (agree_withAligned fun _ => agree_complete fun _ => rfl)
  | swc1 | sdc1 => exact agree_withCop1 (agree_storeVirt ..)
  | mfc1 | cfc1 => exact agree_withCop1 (agree_writeBack ..)
  | dmfc1 => exact agree_withCop1 (agree_withOps64 (agree_writeBack ..))
  | mtc1 => exact agree_withCop1 (agree_complete fun u => writeF32Move_hideSystem u ..)
  | dmtc1 => exact agree_withCop1 (agree_withOps64 (agree_complete fun _ => rfl))
  | ctc1 => exact agree_ctc1 ..
  | bc1f | bc1t => exact agree_withCop1 (agree_condBranch ..)
  | bc1fl | bc1tl => exact agree_withCop1 (agree_condBranchLikely ..)
  | movS | movD => exact agree_fpMove ..
  | cFS | cFD | cUnS | cUnD | cEqS | cEqD | cUeqS | cUeqD | cOltS | cOltD | cUltS | cUltD
  | cOleS | cOleD | cUleS | cUleD | cSfS | cSfD | cNgleS | cNgleD | cSeqS | cSeqD | cNglS | cNglD
  | cLtS | cLtD | cNgeS | cNgeD | cLeS | cLeD | cNgtS | cNgtD => exact agree_fpCmp ..
  | _ => exact agree_withCop1 (agree_fpFinish ..)

end

/-- Settles O22: what an instruction may write, and that it answers alike whatever is hidden. -/
theorem systemStateProtected : Obligations.SystemStateProtected := fun i _ unusable =>
  ⟨fun _ => exec_keepsSystem unusable, fun _ _ _ _ => exec_agree i unusable⟩

end Sys2Proof.Machine
end
